-- ==== Sys2Proof/Word.lean ====
section
/-! DEFINITION. The word types of the IZ-4 and the one shape of every keyed table of the model. -/

namespace Sys2Proof

/-- One byte. -/
abbrev Byte := BitVec 8
/-- One lane word of a register row (R83). -/
abbrev W32 := BitVec 32
/-- A scalar, an address or a 64-bit element. -/
abbrev W64 := BitVec 64
/-- One bit per lane position of a group, bit L for lane L. -/
abbrev Mask := BitVec 64
/-- The 64 lane words of a row (R178). -/
abbrev Vals := Vector W32 64
/-- A table from numbers to entries, kept in ascending order of its keys. -/
abbrev FMap (α : Type) := List (Nat × α)

end Sys2Proof
end

