-- ==== Sys2Proof/Config.lean ====
section
/-! DEFINITION. The values that the spec leaves open: opaque constants without a body, so that no proof can see one. -/

namespace Sys2Proof.Config

/-- How far a cycle counter has advanced between two reads (R27 fixes no number of cycles between two issues);
applied to the free-value counter of the state. LOG 4. -/
opaque clkAdvance : Nat → Nat
/-- The value of the hub die's random source that seeds a core at start (R108). LOG 7. -/
opaque startSeed : Nat → BitVec 32
/-- The result of an approximate operation (R88) on an operand, used only where it lies within the bound of R88:
operation number (0 frcp, 1 frsq, 3 fexp2, 4 flog2), operand. LOG 5. -/
opaque approx : Nat → BitVec 32 → BitVec 32
/-- Whether the lower of a scheduler's two pipes is taken when an instruction issues, so that it goes to the upper one (R43, R106: the
spec fixes no interleaving of the groups); applied to the free-value counter of the state. LOG 20. -/
opaque upperPipe : Nat → Bool
/-- What a study core's generator holds when firmware seeds it (R335). LOG 7. -/
opaque studySeed : Nat → BitVec 32
/-- Whether the host answers an access with an error completion (R438), applied to the free-value counter of the state. LOG 17. -/
opaque hostFails : Nat → Bool
/-- Whether the host has changed a location whose atomic it answered with an error completion (R438). LOG 17. -/
opaque hostChanged : Nat → Bool
/-- The pc field of an arrive or depart record of a group with no eligible lane, whose smallest eligible program counter does not exist (R352);
applied to the free-value counter of the state. LOG 16. -/
opaque recordPc : Nat → BitVec 64

/-- Whether an L1 or L2 line is evicted when another one is given room (R68, R72): free-value counter, line. LOG 93. -/
opaque evicts : Nat → Nat → Bool
/-- Which entry of a full cache, set or TLB makes room (R70, R72, R81, R389). LOG 93. -/
opaque victim : Nat → Nat
/-- Whether a TLB still holds an entry when an access looks for it (R81, R82): issues of the module, core or die, page. LOG 9. -/
opaque tlbHolds : Nat → Nat → Nat → Bool
/-- Whether a fetch uses the line that the instruction cache holds, and not one fetched anew (R64): issues of the module, line. LOG 94. -/
opaque icacheHit : Nat → Nat → Bool
/-- Whether the pipe, scalar unit or memory port that a group's next instruction needs is free as a `yield` issues (R190, R315: the spec's timing settles
it): issues of the module, group. LOG 104. -/
opaque portFree : Nat → Nat → Bool
/-- The training results that a full training of a unit gives (R379): free-value counter. LOG 115. -/
opaque trainResult : Nat → Nat
/-- The stamp that a flit from a peer module carries (R24), applied to the free-value counter of the state. LOG 110. -/
opaque peerStamp : Nat → BitVec 64
/-- Which item of a slice's share lies in a sector that the patrol finds damaged (R265 leaves the layout open, R447), by its place among those of the
slice; a number beyond them is no item: free-value counter. LOG 116. -/
opaque itemHit : Nat → Nat
/-- Whether the tag of a damaged item can be read (R447): free-value counter. LOG 116. -/
opaque tagReadable : Nat → Bool
/-- The kind of the class 0 record of an error that an array's own code corrects (R401, R434: none is given). LOG 117. -/
opaque softKind : Nat
/-- The kind of a fault that is contained at a VF, a partition or a die (R406: none is given): free-value counter. LOG 114. -/
opaque wideKind : Nat → Nat

end Sys2Proof.Config
end

