-- ==== Sys2Proof/Syntax.lean ====
section
/-! DEFINITION. The instructions of the IZ-4: one constructor for each row of the opcode table.
Register numbers, scopes and types are decoded here once; the machine never sees raw encodings. -/

namespace Sys2Proof

/-- v0 to v59 (R112). -/
abbrev VReg := Fin 60
/-- p0 to p11 (R113). -/
abbrev PReg := Fin 12
/-- s0 to s31 (R113). -/
abbrev SReg := Fin 32
/-- The guard of an instruction: none means always (R113). -/
abbrev Guard := Option PReg

/-- A source field of R112: a row of the current frame or a bypass slot. -/
inductive VSrc where
  | row (r : VReg)
  | slot (b : Fin 4)
  deriving DecidableEq, Repr

/-- The layouts of R83. -/
inductive IntTy where | w32 | h16 | b8 | p64
  deriving DecidableEq, Repr

/-- The floating-point types of R85. -/
inductive FloTy where | f32 | f16 | bf16 | f64
  deriving DecidableEq, Repr

/-- The operand types of `setp` (R154). -/
inductive SetTy where | i32 | i64 | f32 | f64
  deriving DecidableEq, Repr

/-- The rounding modes of `cvt` (R89). -/
inductive Rnd where | rn | rz | rm | rp
  deriving DecidableEq, Repr

/-- The scopes of R113. -/
inductive Scope where | grp | team | suite | die | pkg | sys
  deriving DecidableEq, Repr

/-- The barrier levels of R113. -/
inductive Level where | team | suite | die | grid
  deriving DecidableEq, Repr

/-- The conditions of `brs` (R175). -/
inductive BrCc where | eqz | nez | ltz | lez | gtz | gez
  deriving DecidableEq, Repr

/-- The operations of `redx` and `scan` (R125). -/
inductive RedOp where | addInt | addF32 | minS | maxS | minF32 | maxF32 | and | or
  deriving DecidableEq, Repr

/-- Format V3 with a type. -/
structure V3 (τ : Type) where
  (ty : τ) (b a : VSrc) (nw : Bool) (d : VReg) (g : Guard)
  deriving DecidableEq, Repr
/-- Format V3 with two sources and no type of its own: `bfx`, `bfi`, `shfl`, `cvtn` (b holds the format word). -/
structure V2 where
  (b a : VSrc) (nw : Bool) (d : VReg) (g : Guard)
  deriving DecidableEq, Repr
/-- `cvtn.unpk`: d names the first of four rows. -/
abbrev V2u := V2
/-- Format V3 of `sel`: the selecting predicate stands in the place of the guard (R156). -/
structure VSel where
  (pair : Bool) (b a : VSrc) (nw : Bool) (d : VReg) (p : PReg)
  deriving DecidableEq, Repr
/-- Unary with a 64-bit form (R122). -/
structure U2 where
  (pair : Bool) (a : VSrc) (nw : Bool) (d : VReg) (g : Guard)
  deriving DecidableEq, Repr
/-- Unary on 32-bit rows (R122). -/
structure U1 where
  (a : VSrc) (nw : Bool) (d : VReg) (g : Guard)
  deriving DecidableEq, Repr
/-- `cvt` (R159). -/
structure VCvt where
  (mode : Rnd) (code : Fin 39) (a : VSrc) (nw : Bool) (d : VReg) (g : Guard)
  deriving DecidableEq, Repr
/-- Format VI with an 8-bit immediate. -/
structure VI where
  (imm : BitVec 8) (a : VSrc) (nw : Bool) (d : VReg) (g : Guard)
  deriving DecidableEq, Repr
/-- Format VI of the immediate shifts. -/
structure VIs where
  (amt : Fin 32) (a : VSrc) (nw : Bool) (d : VReg) (g : Guard)
  deriving DecidableEq, Repr
/-- `movi`. -/
structure VIm where
  (imm : BitVec 8) (nw : Bool) (d : VReg) (g : Guard)
  deriving DecidableEq, Repr
/-- `setp`. -/
structure VP where
  (ty : SetTy) (b a : VSrc) (cc : Fin 8) (pd : PReg) (g : Guard)
  deriving DecidableEq, Repr
/-- `setpi`. -/
structure VPi where
  (imm : BitVec 6) (a : VSrc) (cc : Fin 8) (pd : PReg) (g : Guard)
  deriving DecidableEq, Repr
/-- Format PL with two sources. -/
structure PL3 where
  (pb pa pd : PReg) (g : Guard)
  deriving DecidableEq, Repr
/-- Format PL with one source; also the votes of format LV. -/
structure PL2 where
  (pa pd : PReg) (g : Guard)
  deriving DecidableEq, Repr
/-- Format PL with no source. -/
structure PL1 where
  (pd : PReg) (g : Guard)
  deriving DecidableEq, Repr
/-- Format LV with a scalar destination. -/
structure LVs where
  (pa : PReg) (sd : SReg) (g : Guard)
  deriving DecidableEq, Repr
/-- `redx`. -/
structure VRed where
  (op : RedOp) (a : VSrc) (nw : Bool) (d : VReg) (g : Guard)
  deriving DecidableEq, Repr
/-- `scan`. -/
structure VScan where
  (ex : Bool) (op : RedOp) (a : VSrc) (nw : Bool) (d : VReg) (g : Guard)
  deriving DecidableEq, Repr
/-- `vmovs`. -/
structure MVb where
  (s : SReg) (v : VReg) (g : Guard)
  deriving DecidableEq, Repr
/-- `smovv`. -/
structure MVs where
  (lane : Fin 64) (s : SReg) (v : VSrc) (g : Guard)
  deriving DecidableEq, Repr
/-- `vins`. -/
structure MVi where
  (lane : Fin 64) (s : SReg) (v : VReg) (g : Guard)
  deriving DecidableEq, Repr
/-- Format SS. -/
structure SS where
  (sb sa sd : SReg)
  deriving DecidableEq, Repr
/-- Format SI. -/
structure SI where
  (imm : BitVec 16) (sd : SReg)
  deriving DecidableEq, Repr
/-- Format C16: a source row v0 to v27 or slot, and the destination that is also the first source (R117). -/
structure C16 where
  (e : VSrc) (d : VReg)
  deriving DecidableEq, Repr
/-- Format C16 with an immediate. -/
structure C16i where
  (imm : BitVec 5) (d : VReg)
  deriving DecidableEq, Repr
/-- `call` (R181): pool entry, argument rows, frame size. -/
structure CL where
  (e : BitVec 8) (k : Fin 8) (nm16 : Fin 9) (nv : Fin 61)
  deriving DecidableEq, Repr
/-- `calli`. -/
structure CI where
  (s : SReg) (k : Fin 8) (nm16 : Fin 9) (nv : Fin 61)
  deriving DecidableEq, Repr
/-- A load of format M. -/
structure ML where
  (va : VSrc) (s : SReg) (v : VReg) (g : Guard)
  deriving DecidableEq, Repr
/-- A store of format M. -/
structure MS where
  (va : VSrc) (s : SReg) (v : VSrc) (g : Guard)
  deriving DecidableEq, Repr
/-- `pf`. -/
structure MP where
  (va : VSrc) (s : SReg) (g : Guard)
  deriving DecidableEq, Repr
/-- `ldl.32`. -/
structure MLl where
  (imm : BitVec 9) (s : SReg) (v : VReg) (g : Guard)
  deriving DecidableEq, Repr
/-- `stl.32`. -/
structure MLs where
  (imm : BitVec 9) (s : SReg) (v : VSrc) (g : Guard)
  deriving DecidableEq, Repr
/-- `lds`. -/
structure XLds where
  (nw : Bool) (o : VSrc) (d : VReg) (g : Guard)
  deriving DecidableEq, Repr
/-- `sts`. -/
structure XSts where
  (o d : VSrc) (g : Guard)
  deriving DecidableEq, Repr
/-- `ldw`. -/
structure XLdw where
  (nw : Bool) (o : VSrc) (d : VReg) (w : Fin 16)
  deriving DecidableEq, Repr
/-- `sldw`. -/
structure XSldw where
  (o d : SReg) (w : Fin 16)
  deriving DecidableEq, Repr
/-- `ld.acq`. -/
structure XAcq where
  (nw : Bool) (a : VSrc) (d : VReg) (c : Scope)
  deriving DecidableEq, Repr
/-- `st.rel` and `red`: address pair, data, scope. -/
structure XRel where
  (a d : VSrc) (c : Scope)
  deriving DecidableEq, Repr
/-- `atom`: address pair, operand row that receives the old value, scope. -/
structure XAtom where
  (a : VSrc) (d : VReg) (c : Scope)
  deriving DecidableEq, Repr
/-- `sem.set` and `sem.add`. -/
structure XSem where
  (s : SReg) (k : Fin 64) (c : Scope)
  deriving DecidableEq, Repr
/-- Hatch instructions. -/
structure XHatch where
  (s : SReg) (h : Fin 8)
  deriving DecidableEq, Repr
/-- `enq`. -/
structure XEnq where
  (o : VSrc) (g : Guard)
  deriving DecidableEq, Repr
/-- `wpop`, `wpush`. -/
structure XWq where
  (o q : SReg)
  deriving DecidableEq, Repr
/-- `pcopy`, `ptake`. -/
structure XPan where
  (try_ : Bool) (p : VSrc) (d : VReg) (n : Fin 16)
  deriving DecidableEq, Repr
/-- `mx`, `mx.sp`. -/
structure MX where
  (fw : VSrc) (dq : Fin 5) (b a : VReg)
  deriving DecidableEq, Repr
/-- `mld`, `mst`. -/
structure MXm where
  (dq : Fin 8) (a : VSrc)
  deriving DecidableEq, Repr

/-- The special registers of R199. -/
inductive SpReg where
  | lane | tid | group | ngroup | role | teamX | teamY | teamZ | nteamX | nteamY | nteamZ | suite | gang | die
  | ndie | dieclass | grid | core | fdepth | unw | srseed | rbk | trapcode | trapval | studied | part | vf | gen | xqsel
  deriving DecidableEq, Repr

/-- The engines that acknowledge a pre-emption (R55). -/
inductive Engine where | lane | copy | matrix | collective
  deriving DecidableEq, Repr

/-- What is read and found damaged (R434 to R437, R441 to R443, R447, R459), or a unit of the ladder that damage may have reached as a whole (R406). -/
inductive Damage where
  /-- A sector of HBM, by its number. -/
  | hbm (sector : Nat)
  /-- A lane word of a row of a group's frame at a depth: v rows, and m rows from 64 on. -/
  | row (grp depth row lane : Nat)
  | scalar (grp depth reg : Nat)
  /-- A bank word of a team's scratchpad, with its sparse index rings. -/
  | bank (team word : Nat)
  /-- A handle of a hatch, by its place from the oldest on. -/
  | hatch (team hatch place : Nat)
  | l1 (core line sector : Nat)
  | icache (core grid line : Nat)
  /-- A sector of a line that a die's L2 holds as a visitor. -/
  | visitor (die line sector : Nat)
  /-- A sector in the L2 of its home: whether it is clean, and its copy in memory sound. -/
  | home (sector : Nat) (clean : Bool)
  | parlour (grid die sector : Nat)
  /-- A stored item of a pantry region, by its place: whether its tag can be read. -/
  | item (asn region place : Nat) (readable : Bool)
  /-- A parked request. -/
  | request (id : Nat)
  /-- Entries of a team's undo area, scratchpad log and shadow pool, by their places. -/
  | undo (team entry : Nat)
  | scratchLog (team entry : Nat)
  | shadow (team entry : Nat)
  /-- A dirty-map plane. -/
  | plane (asn plane : Nat)
  /-- The shadow copy that firmware keeps of a queue's control block (R364, R467). -/
  | queueShadow (vf queue : Nat)
  | studyControl (core : Nat)
  | vf (vf : Nat)
  | partition (part : Nat)
  | die (die : Nat)
  deriving DecidableEq, Repr

/-- What training a unit gave (R379, R470). -/
inductive Training where | stored | full | failed
  deriving DecidableEq, Repr

/-- One constructor for each row of the opcode table, in its order.
The rows after `mxq` have no encoding: they are the steps of the part's other agents. -/
inductive Instr where
  /-- ADD (R149). -/
  | add (f : V3 IntTy)
  /-- SUB (R149). -/
  | sub (f : V3 IntTy)
  /-- MUL (R149). -/
  | mul (f : V3 IntTy)
  /-- MULH_S (R149). -/
  | mulhS (f : V3 IntTy)
  /-- MULH_Z (R149). -/
  | mulhZ (f : V3 IntTy)
  /-- MAD (R149). -/
  | mad (f : V3 IntTy)
  /-- MIN_S (R149). -/
  | minS (f : V3 IntTy)
  /-- MIN_Z (R149). -/
  | minZ (f : V3 IntTy)
  /-- MAX_S (R149). -/
  | maxS (f : V3 IntTy)
  /-- MAX_Z (R149). -/
  | maxZ (f : V3 IntTy)
  /-- AND (R149). -/
  | and (f : V3 IntTy)
  /-- OR (R149). -/
  | or (f : V3 IntTy)
  /-- XOR (R149). -/
  | xor (f : V3 IntTy)
  /-- ANDN (R149). -/
  | andn (f : V3 IntTy)
  /-- SHL (R149). -/
  | shl (f : V3 IntTy)
  /-- SHR (R149). -/
  | shr (f : V3 IntTy)
  /-- SAR (R149). -/
  | sar (f : V3 IntTy)
  /-- ROTL (R149). -/
  | rotl (f : V3 IntTy)
  /-- ADDS (R149). -/
  | adds (f : V3 IntTy)
  /-- SUBS (R149). -/
  | subs (f : V3 IntTy)
  /-- ADDI (R151). -/
  | addi (f : VI)
  /-- ANDI (R151). -/
  | andi (f : VI)
  /-- ORI (R151). -/
  | ori (f : VI)
  /-- XORI (R151). -/
  | xori (f : VI)
  /-- SHLI (R151). -/
  | shli (f : VIs)
  /-- SHRI (R151). -/
  | shri (f : VIs)
  /-- SARI (R151). -/
  | sari (f : VIs)
  /-- MOVI (R151). -/
  | movi (f : VIm)
  /-- FADD (R152). -/
  | fadd (f : V3 FloTy)
  /-- FSUB (R152). -/
  | fsub (f : V3 FloTy)
  /-- FMUL (R152). -/
  | fmul (f : V3 FloTy)
  /-- FMA (R152). -/
  | fma (f : V3 FloTy)
  /-- FMIN (R152). -/
  | fmin (f : V3 FloTy)
  /-- FMAX (R152). -/
  | fmax (f : V3 FloTy)
  /-- FDOT2 (R153). -/
  | fdot2 (f : V3 Bool)
  /-- SETP (R154). -/
  | setp (f : VP)
  /-- SETPI (R154). -/
  | setpi (f : VPi)
  /-- PAND (R155). -/
  | pand (f : PL3)
  /-- POR (R155). -/
  | por (f : PL3)
  /-- PXOR (R155). -/
  | pxor (f : PL3)
  /-- PANDN (R155). -/
  | pandn (f : PL3)
  /-- PNOT (R155). -/
  | pnot (f : PL2)
  /-- PMOV (R155). -/
  | pmov (f : PL2)
  /-- PSET (R155). -/
  | pset (f : PL1)
  /-- PCLR (R155). -/
  | pclr (f : PL1)
  /-- SEL (R156). -/
  | sel (f : VSel)
  /-- MOV (R157). -/
  | mov (f : U2)
  /-- ABS (R157). -/
  | abs (f : U2)
  /-- NEG (R157). -/
  | neg (f : U2)
  /-- NOT (R157). -/
  | not (f : U2)
  /-- CLZ (R157). -/
  | clz (f : U1)
  /-- POPC (R157). -/
  | popc (f : U1)
  /-- BREV (R157). -/
  | brev (f : U1)
  /-- FABS (R157). -/
  | fabs (f : U1)
  /-- FNEG (R157). -/
  | fneg (f : U1)
  /-- FRCP (R88). -/
  | frcp (f : U1)
  /-- FRSQ (R88). -/
  | frsq (f : U1)
  /-- FSQRT (R88). -/
  | fsqrt (f : U1)
  /-- FEXP2 (R88). -/
  | fexp2 (f : U1)
  /-- FLOG2 (R88). -/
  | flog2 (f : U1)
  /-- FRND_N (R157). -/
  | frndN (f : U1)
  /-- FRND_Z (R157). -/
  | frndZ (f : U1)
  /-- FRND_M (R157). -/
  | frndM (f : U1)
  /-- FRND_P (R157). -/
  | frndP (f : U1)
  /-- FCLASS (R158). -/
  | fclass (f : U1)
  /-- CVT (R159). -/
  | cvt (f : VCvt)
  /-- CVTN_PK (R161). -/
  | cvtnPk (f : V2)
  /-- CVTN_UNPK (R162). -/
  | cvtnUnpk (f : V2)
  /-- CVTN_BSCALE (R163). -/
  | cvtnBscale (f : V2)
  /-- BFX_S (R164). -/
  | bfxS (f : V2)
  /-- BFX_Z (R164). -/
  | bfxZ (f : V2)
  /-- BFI (R164). -/
  | bfi (f : V2)
  /-- SHFL_IDX (R165). -/
  | shflIdx (f : V2)
  /-- SHFL_UP (R165). -/
  | shflUp (f : V2)
  /-- SHFL_DN (R165). -/
  | shflDn (f : V2)
  /-- SHFL_XOR (R165). -/
  | shflXor (f : V2)
  /-- VOTE_ANY (R166). -/
  | voteAny (f : PL2)
  /-- VOTE_ALL (R166). -/
  | voteAll (f : PL2)
  /-- VOTE_EQ (R166). -/
  | voteEq (f : PL2)
  /-- BALLOT (R166). -/
  | ballot (f : LVs)
  /-- BALLOT_CNT (R166). -/
  | ballotCnt (f : LVs)
  /-- REDX (R167). -/
  | redx (f : VRed)
  /-- SCAN (R167). -/
  | scan (f : VScan)
  /-- VMOVS (R168). -/
  | vmovs (f : MVb)
  /-- SMOVV (R168). -/
  | smovv (f : MVs)
  /-- VINS (R168). -/
  | vins (f : MVi)
  /-- SADD (R169). -/
  | sadd (f : SS)
  /-- SSUB (R169). -/
  | ssub (f : SS)
  /-- SMUL (R169). -/
  | smul (f : SS)
  /-- SMULH (R169). -/
  | smulh (f : SS)
  /-- SDIV (R169). -/
  | sdiv (f : SS)
  /-- SDIVZ (R169). -/
  | sdivz (f : SS)
  /-- SREM (R169). -/
  | srem (f : SS)
  /-- SAND (R169). -/
  | sand (f : SS)
  /-- SOR (R169). -/
  | sor (f : SS)
  /-- SXOR (R169). -/
  | sxor (f : SS)
  /-- SSHL (R169). -/
  | sshl (f : SS)
  /-- SSHR (R169). -/
  | sshr (f : SS)
  /-- SSAR (R169). -/
  | ssar (f : SS)
  /-- SMIN (R169). -/
  | smin (f : SS)
  /-- SMAX (R169). -/
  | smax (f : SS)
  /-- SMINZ (R169). -/
  | sminz (f : SS)
  /-- SMAXZ (R169). -/
  | smaxz (f : SS)
  /-- SMOV (R169). -/
  | smov (sa sd : SReg)
  /-- SSLT (R169). -/
  | sslt (f : SS)
  /-- SSLTZ (R169). -/
  | ssltz (f : SS)
  /-- SSEQ (R169). -/
  | sseq (f : SS)
  /-- SADDI (R170). -/
  | saddi (imm : BitVec 11) (sa sd : SReg)
  /-- SLI (R171). -/
  | sli (f : SI)
  /-- SLH (R171). -/
  | slh (f : SI)
  /-- SLX (R171). -/
  | slx (f : SI)
  /-- MOV_COMPACT (R117). -/
  | movCompact (f : C16)
  /-- ADD_COMPACT (R117). -/
  | addCompact (f : C16)
  /-- SUB_COMPACT (R117). -/
  | subCompact (f : C16)
  /-- AND_COMPACT (R117). -/
  | andCompact (f : C16)
  /-- OR_COMPACT (R117). -/
  | orCompact (f : C16)
  /-- XOR_COMPACT (R117). -/
  | xorCompact (f : C16)
  /-- SHL_COMPACT (R117). -/
  | shlCompact (f : C16)
  /-- SHR_COMPACT (R117). -/
  | shrCompact (f : C16)
  /-- FADD_COMPACT (R117). -/
  | faddCompact (f : C16)
  /-- FSUB_COMPACT (R117). -/
  | fsubCompact (f : C16)
  /-- FMUL_COMPACT (R117). -/
  | fmulCompact (f : C16)
  /-- MIN_COMPACT (R117). -/
  | minCompact (f : C16)
  /-- MAX_COMPACT (R117). -/
  | maxCompact (f : C16)
  /-- MUL_COMPACT (R117). -/
  | mulCompact (f : C16)
  /-- ADDQ (R117). -/
  | addq (f : C16i)
  /-- MOVQ (R117). -/
  | movq (f : C16i)
  /-- BRA (R174). -/
  | bra (off : BitVec 21) (g : Guard)
  /-- BRS (R175). -/
  | brs (off : BitVec 13) (cc : BrCc) (sa : SReg)
  /-- CALL (R181). -/
  | call (f : CL)
  /-- CALLI (R181). -/
  | calli (f : CI)
  /-- RET (R182). -/
  | ret (k : Fin 8)
  /-- UNWIND (R183). -/
  | unwind (sa : SReg)
  /-- JMP (R176). -/
  | jmp (sa : SReg)
  /-- REFORM (R189). -/
  | reform
  /-- EXIT (R190). -/
  | exit
  /-- YIELD (R190). -/
  | yield
  /-- NOP (R190). -/
  | nop
  /-- TRAP (R191). -/
  | trap (code : BitVec 16)
  /-- BRK (R196). -/
  | brk (code : BitVec 16)
  /-- RTI (R197). -/
  | rti
  /-- SUSPECT (R357). -/
  | suspect (code : BitVec 16)
  /-- PROBE (R358). -/
  | probe (tag : BitVec 8) (sa : SReg)
  /-- LOOP (R177). -/
  | loop (off : BitVec 16) (s : SReg)
  /-- LD_S8 (R211). -/
  | ldS8 (f : ML)
  /-- LD_Z8 (R211). -/
  | ldZ8 (f : ML)
  /-- LD_S16 (R211). -/
  | ldS16 (f : ML)
  /-- LD_Z16 (R211). -/
  | ldZ16 (f : ML)
  /-- LD_32 (R211). -/
  | ld32 (f : ML)
  /-- LD_64 (R211). -/
  | ld64 (f : ML)
  /-- LD_128 (R211). -/
  | ld128 (f : ML)
  /-- ST_8 (R211). -/
  | st8 (f : MS)
  /-- ST_16 (R211). -/
  | st16 (f : MS)
  /-- ST_32 (R211). -/
  | st32 (f : MS)
  /-- ST_64 (R211). -/
  | st64 (f : MS)
  /-- ST_128 (R211). -/
  | st128 (f : MS)
  /-- PF (R212). -/
  | pf (f : MP)
  /-- LDL_32 (R213). -/
  | ldl32 (f : MLl)
  /-- STL_32 (R213). -/
  | stl32 (f : MLs)
  /-- LDS_32 (R214). -/
  | lds32 (f : XLds)
  /-- LDS_64 (R214). -/
  | lds64 (f : XLds)
  /-- LDS_128 (R214). -/
  | lds128 (f : XLds)
  /-- STS_32 (R214). -/
  | sts32 (f : XSts)
  /-- STS_64 (R214). -/
  | sts64 (f : XSts)
  /-- STS_128 (R214). -/
  | sts128 (f : XSts)
  /-- LDW_32 (R216). -/
  | ldw32 (f : XLdw)
  /-- LDW_64 (R216). -/
  | ldw64 (f : XLdw)
  /-- SLDW (R216). -/
  | sldw (f : XSldw)
  /-- LD_ACQ_32 (R218). -/
  | ldAcq32 (f : XAcq)
  /-- LD_ACQ_64 (R218). -/
  | ldAcq64 (f : XAcq)
  /-- ST_REL_32 (R218). -/
  | stRel32 (f : XRel)
  /-- ST_REL_64 (R218). -/
  | stRel64 (f : XRel)
  /-- ATOM_ADD_32 (R221). -/
  | atomAdd32 (f : XAtom)
  /-- ATOM_MIN_S_32 (R221). -/
  | atomMinS32 (f : XAtom)
  /-- ATOM_MIN_Z_32 (R221). -/
  | atomMinZ32 (f : XAtom)
  /-- ATOM_MAX_S_32 (R221). -/
  | atomMaxS32 (f : XAtom)
  /-- ATOM_MAX_Z_32 (R221). -/
  | atomMaxZ32 (f : XAtom)
  /-- ATOM_AND_32 (R221). -/
  | atomAnd32 (f : XAtom)
  /-- ATOM_OR_32 (R221). -/
  | atomOr32 (f : XAtom)
  /-- ATOM_XOR_32 (R221). -/
  | atomXor32 (f : XAtom)
  /-- ATOM_XCHG_32 (R221). -/
  | atomXchg32 (f : XAtom)
  /-- ATOM_CAS_32 (R221). -/
  | atomCas32 (f : XAtom)
  /-- ATOM_FADD_32 (R221). -/
  | atomFadd32 (f : XAtom)
  /-- ATOM_ADD_64 (R221). -/
  | atomAdd64 (f : XAtom)
  /-- ATOM_MIN_S_64 (R221). -/
  | atomMinS64 (f : XAtom)
  /-- ATOM_MIN_Z_64 (R221). -/
  | atomMinZ64 (f : XAtom)
  /-- ATOM_MAX_S_64 (R221). -/
  | atomMaxS64 (f : XAtom)
  /-- ATOM_MAX_Z_64 (R221). -/
  | atomMaxZ64 (f : XAtom)
  /-- ATOM_AND_64 (R221). -/
  | atomAnd64 (f : XAtom)
  /-- ATOM_OR_64 (R221). -/
  | atomOr64 (f : XAtom)
  /-- ATOM_XOR_64 (R221). -/
  | atomXor64 (f : XAtom)
  /-- ATOM_XCHG_64 (R221). -/
  | atomXchg64 (f : XAtom)
  /-- ATOM_CAS_64 (R221). -/
  | atomCas64 (f : XAtom)
  /-- ATOM_FADD_64 (R221). -/
  | atomFadd64 (f : XAtom)
  /-- ATOM_ADD_AR_32 (R223). -/
  | atomAddAr32 (f : XAtom)
  /-- ATOM_MIN_S_AR_32 (R223). -/
  | atomMinSAr32 (f : XAtom)
  /-- ATOM_MIN_Z_AR_32 (R223). -/
  | atomMinZAr32 (f : XAtom)
  /-- ATOM_MAX_S_AR_32 (R223). -/
  | atomMaxSAr32 (f : XAtom)
  /-- ATOM_MAX_Z_AR_32 (R223). -/
  | atomMaxZAr32 (f : XAtom)
  /-- ATOM_AND_AR_32 (R223). -/
  | atomAndAr32 (f : XAtom)
  /-- ATOM_OR_AR_32 (R223). -/
  | atomOrAr32 (f : XAtom)
  /-- ATOM_XOR_AR_32 (R223). -/
  | atomXorAr32 (f : XAtom)
  /-- ATOM_XCHG_AR_32 (R223). -/
  | atomXchgAr32 (f : XAtom)
  /-- ATOM_CAS_AR_32 (R223). -/
  | atomCasAr32 (f : XAtom)
  /-- ATOM_FADD_AR_32 (R223). -/
  | atomFaddAr32 (f : XAtom)
  /-- ATOM_ADD_AR_64 (R223). -/
  | atomAddAr64 (f : XAtom)
  /-- ATOM_MIN_S_AR_64 (R223). -/
  | atomMinSAr64 (f : XAtom)
  /-- ATOM_MIN_Z_AR_64 (R223). -/
  | atomMinZAr64 (f : XAtom)
  /-- ATOM_MAX_S_AR_64 (R223). -/
  | atomMaxSAr64 (f : XAtom)
  /-- ATOM_MAX_Z_AR_64 (R223). -/
  | atomMaxZAr64 (f : XAtom)
  /-- ATOM_AND_AR_64 (R223). -/
  | atomAndAr64 (f : XAtom)
  /-- ATOM_OR_AR_64 (R223). -/
  | atomOrAr64 (f : XAtom)
  /-- ATOM_XOR_AR_64 (R223). -/
  | atomXorAr64 (f : XAtom)
  /-- ATOM_XCHG_AR_64 (R223). -/
  | atomXchgAr64 (f : XAtom)
  /-- ATOM_CAS_AR_64 (R223). -/
  | atomCasAr64 (f : XAtom)
  /-- ATOM_FADD_AR_64 (R223). -/
  | atomFaddAr64 (f : XAtom)
  /-- RED_ADD_32 (R222). -/
  | redAdd32 (f : XRel)
  /-- RED_MIN_S_32 (R222). -/
  | redMinS32 (f : XRel)
  /-- RED_MIN_Z_32 (R222). -/
  | redMinZ32 (f : XRel)
  /-- RED_MAX_S_32 (R222). -/
  | redMaxS32 (f : XRel)
  /-- RED_MAX_Z_32 (R222). -/
  | redMaxZ32 (f : XRel)
  /-- RED_AND_32 (R222). -/
  | redAnd32 (f : XRel)
  /-- RED_OR_32 (R222). -/
  | redOr32 (f : XRel)
  /-- RED_XOR_32 (R222). -/
  | redXor32 (f : XRel)
  /-- RED_XCHG_32 (R222). -/
  | redXchg32 (f : XRel)
  /-- RED_FADD_32 (R222). -/
  | redFadd32 (f : XRel)
  /-- RED_ADD_64 (R222). -/
  | redAdd64 (f : XRel)
  /-- RED_MIN_S_64 (R222). -/
  | redMinS64 (f : XRel)
  /-- RED_MIN_Z_64 (R222). -/
  | redMinZ64 (f : XRel)
  /-- RED_MAX_S_64 (R222). -/
  | redMaxS64 (f : XRel)
  /-- RED_MAX_Z_64 (R222). -/
  | redMaxZ64 (f : XRel)
  /-- RED_AND_64 (R222). -/
  | redAnd64 (f : XRel)
  /-- RED_OR_64 (R222). -/
  | redOr64 (f : XRel)
  /-- RED_XOR_64 (R222). -/
  | redXor64 (f : XRel)
  /-- RED_XCHG_64 (R222). -/
  | redXchg64 (f : XRel)
  /-- RED_FADD_64 (R222). -/
  | redFadd64 (f : XRel)
  /-- FENCE (R224). -/
  | fence (c : Scope)
  /-- FENCE_ACQ (R224). -/
  | fenceAcq (c : Scope)
  /-- FENCE_REL (R224). -/
  | fenceRel (c : Scope)
  /-- BAR (R226). -/
  | bar (l : Level)
  /-- BAR_ARR (R226). -/
  | barArr (l : Level)
  /-- BAR_WT (R226). -/
  | barWt (l : Level)
  /-- SEM_SET (R228). -/
  | semSet (f : XSem)
  /-- SEM_ADD (R228). -/
  | semAdd (f : XSem)
  /-- SEM_WAIT (R228). -/
  | semWait (s : SReg) (k : Fin 64)
  /-- HPUSH (R230). -/
  | hpush (f : XHatch)
  /-- HPOP (R230). -/
  | hpop (f : XHatch)
  /-- HPEEK (R230). -/
  | hpeek (f : XHatch)
  /-- ENQ_COPY (R239). -/
  | enqCopy (f : XEnq)
  /-- ENQ_GATHER (R239). -/
  | enqGather (f : XEnq)
  /-- ENQ_SCATTER (R239). -/
  | enqScatter (f : XEnq)
  /-- ENQ_FILL (R239). -/
  | enqFill (f : XEnq)
  /-- ENQ_COLL (R239). -/
  | enqColl (f : XEnq)
  /-- WPOP (R252). -/
  | wpop (f : XWq)
  /-- WPUSH (R252). -/
  | wpush (f : XWq)
  /-- LAUNCH (R303). -/
  | launch (s : SReg)
  /-- RLNCH (R331). -/
  | rlnch (s : SReg)
  /-- DMARK (R332). -/
  | dmark
  /-- PDEP (R278). -/
  | pdep (item : VSrc) (n : Fin 16)
  /-- PCOPY (R279). -/
  | pcopy (f : XPan)
  /-- PTAKE (R279). -/
  | ptake (f : XPan)
  /-- GSR (R200). -/
  | gsr (r : SpReg) (sd : SReg)
  /-- GSRV (R200). -/
  | gsrv (nw : Bool) (r : SpReg) (d : VReg)
  /-- SSR (R201). -/
  | ssr (r : SpReg) (s : SReg)
  /-- CLK (R202). -/
  | clk (sd : SReg)
  /-- LCLK (R202). -/
  | lclk (sd : SReg)
  /-- SPOOL (R203). -/
  | spool (i : BitVec 8) (sd : SReg)
  /-- BOUND (R449). -/
  | bound (b : Fin 64) (s : SReg)
  /-- POISON (R452). -/
  | poison (a : VSrc) (g : Guard)
  /-- MX (R258). -/
  | mx (f : MX)
  /-- MX_SP (R259). -/
  | mxSp (f : MX)
  /-- MZERO (R261). -/
  | mzero (dq : Fin 8)
  /-- MLD (R262). -/
  | mld (f : MXm)
  /-- MST (R262). -/
  | mst (f : MXm)
  /-- MMOV_VM (R263). -/
  | mmovVm (dq : Fin 8) (e : Fin 16) (d : VReg)
  /-- MMOV_MV (R263). -/
  | mmovMv (dq : Fin 8) (e : Fin 16) (a : VSrc)
  /-- MXQ (R260). -/
  | mxq (q : Fin 4) (a : VSrc)
  /-- LOAD_LAND (R211). -/
  | loadLand (g n : Nat)
  /-- STORE_DRAIN (R66). -/
  | storeDrain (g : Nat)
  /-- ATOMIC_PERFORM (R222). -/
  | atomicPerform (g : Nat)
  /-- RELEASE_COMPLETE (R219). -/
  | releaseComplete (g : Nat)
  /-- TRANSLATION_WALK_COMPLETE (R81). -/
  | translationWalkComplete (die asn : Nat) (va : W64)
  /-- CELLAR_SPILL_ACK (R186). -/
  | cellarSpillAck (core : Nat)
  /-- REFILL_COMPLETE (R188). -/
  | refillComplete (g : Nat)
  /-- REFORM_BIN_TIMEOUT (R45). -/
  | reformBinTimeout (team bin : Nat)
  /-- REFORM_BIN_LEAVE (R46). -/
  | reformBinLeave (team : Nat)
  /-- YIELD_TIMEOUT (R190). -/
  | yieldTimeout (g : Nat)
  /-- TRAP_RECORD_WRITE (R191). -/
  | trapRecordWrite (g : Nat)
  /-- FAULT_PARK (R400). -/
  | faultPark (g : Nat)
  /-- LAUNCH_ANSWER (R303). -/
  | launchAnswer (g : Nat)
  /-- JOB_START (R235). -/
  | jobStart (core job : Nat)
  /-- JOB_CHUNK_DONE (R248). -/
  | jobChunkDone (core job : Nat)
  /-- JOB_COMPLETE (R243). -/
  | jobComplete (core job : Nat)
  /-- COLLECTIVE_STEP (R386). -/
  | collectiveStep (core job : Nat) (data : List Byte)
  /-- MX_START (R255). -/
  | mxStart (core : Nat)
  /-- MX_COMPLETE (R255). -/
  | mxComplete (core : Nat)
  /-- PANTRY_COPY_ARRIVE (R272). -/
  | pantryCopyArrive (id : Nat)
  /-- PANTRY_TAKE_ARRIVE (R272). -/
  | pantryTakeArrive (id : Nat)
  /-- PANTRY_DEPOSIT_ARRIVE (R272). -/
  | pantryDepositArrive (id : Nat)
  /-- PANTRY_WITHDRAWAL_ARRIVE (R277). -/
  | pantryWithdrawalArrive (id : Nat)
  /-- PANTRY_HELD_RESEND (R276). -/
  | pantryHeldResend (id : Nat)
  /-- PANTRY_ANSWER_LAND (R279). -/
  | pantryAnswerLand (id : Nat)
  /-- WPOP_DELIVER (R252). -/
  | wpopDeliver (vf w : Nat)
  /-- WPUSH_APPEND (R252). -/
  | wpushAppend (vf w : Nat)
  /-- MESSAGE_RECEIVE (R24). -/
  | messageReceive (die : Nat) (stamp : W64)
  /-- TEAM_PLACE (R310). -/
  | teamPlace (part : Nat)
  /-- TEAM_MOVE (R314). -/
  | teamMove (team core : Nat)
  /-- SLICE_END (R308). -/
  | sliceEnd (part : Nat)
  /-- ENGINE_PREEMPT_ACK (R55). -/
  | enginePreemptAck (grid : Nat) (e : Engine)
  /-- PREEMPT_TIMEOUT (R431). -/
  | preemptTimeout (grid : Nat)
  /-- HANG_WINDOW_END (R428). -/
  | hangWindowEnd
  /-- STUDY_MIGRATION_ARRIVE (R341). -/
  | studyMigrationArrive (g : Nat) (crcFail : Bool)
  /-- STUDY_RETURN_COMPLETE (R354). -/
  | studyReturnComplete (g : Nat) (badRows : List Nat) (badState badControl : Bool)
  /-- LAUNCH_CMD (R367). -/
  | launchCmd (vf q : Nat)
  /-- RELAUNCH (R367). -/
  | relaunch (vf q : Nat)
  /-- APPEND (R373). -/
  | append (vf q : Nat)
  /-- COPY (R367). -/
  | copy (vf q : Nat)
  /-- SIGNAL (R368). -/
  | signal (vf q : Nat)
  /-- WAIT (R368). -/
  | wait (vf q : Nat)
  /-- WAIT_RETEST (R368). -/
  | waitRetest (vf q : Nat)
  /-- MARK (R323). -/
  | mark (vf q : Nat)
  /-- STUDY_ARM (R370). -/
  | studyArm (vf q : Nat)
  /-- STUDY_MARK (R370). -/
  | studyMark (vf q : Nat)
  /-- STUDY_RETURN (R370). -/
  | studyReturn (vf q : Nat)
  /-- STUDY_RESUME (R370). -/
  | studyResume (vf q : Nat)
  /-- INVAL (R367). -/
  | inval (vf q : Nat)
  /-- ANSWER (R405). -/
  | answer (vf q : Nat)
  /-- VFCONF_TRAP_VECTOR (R371). -/
  | vfconfTrapVector (vf q : Nat)
  /-- VFCONF_SERVICE_RING (R375). -/
  | vfconfServiceRing (vf q : Nat)
  /-- VFCONF_ERROR_RING (R402). -/
  | vfconfErrorRing (vf q : Nat)
  /-- VFCONF_PRIORITY_CAP (R371). -/
  | vfconfPriorityCap (vf q : Nat)
  /-- VFCONF_SLICE_LENGTH (R308). -/
  | vfconfSliceLength (vf q : Nat)
  /-- VFCONF_ADDRESS_SPACE (R79). -/
  | vfconfAddressSpace (vf q : Nat)
  /-- VFCONF_PARTITION (R388). -/
  | vfconfPartition (vf q : Nat)
  /-- VFCONF_PANTRY_ALLOCATE (R265). -/
  | vfconfPantryAllocate (vf q : Nat)
  /-- VFCONF_PANTRY_FREE (R266). -/
  | vfconfPantryFree (vf q : Nat)
  /-- WQCONF_CREATE (R374). -/
  | wqconfCreate (vf q : Nat)
  /-- WQCONF_DESTROY (R367). -/
  | wqconfDestroy (vf q : Nat)
  /-- DOORBELL (R365). -/
  | doorbell (vf q : Nat) (v : W64)
  /-- QCBADDR (R364). -/
  | qcbaddr (vf q : Nat) (v : W64)
  /-- SVCCONS (R375). -/
  | svccons (vf : Nat) (v : W64)
  /-- ERRCONS (R402). -/
  | errcons (vf : Nat) (v : W64)
  /-- EXANS_ACKNOWLEDGE (R403). -/
  | exansAcknowledge (vf q : Nat) (ack : W32)
  /-- EXANS_RESUME (R404). -/
  | exansResume (vf q : Nat) (ack : W32)
  /-- EXANS_SKIP (R404). -/
  | exansSkip (vf q : Nat) (ack : W32)
  /-- EXANS_ABORT (R404). -/
  | exansAbort (vf q : Nat) (ack : W32)
  /-- PF_ERROR_RING_SET (R402). -/
  | pfErrorRingSet (size : Bool) (v : W64)
  /-- PFERRCONS (R402). -/
  | pferrcons (v : W64)
  /-- CUT (R394). -/
  | cut (id : W32)
  /-- CUT_RESUME (R393). -/
  | cutResume (id : W32)
  /-- PART_WRITE (R388). -/
  | partWrite (n : Fin 16) (v : W64)
  /-- REGISTER_WRITE (R6). -/
  | registerWrite (vf off : Nat) (v : W64)
  /-- HOST_APERTURE_WRITE (R292). -/
  | hostApertureWrite (vf : Nat) (va : W64) (data : List Byte)
  /-- HOST_APERTURE_READ (R472). -/
  | hostApertureRead (vf : Nat) (va : W64) (n : Nat)
  /-- LINK_FLIT_RECEIVE (R462). -/
  | linkFlitReceive (flit : Nat) (crcOk tagOk : Bool) (key : Bool)
  /-- LINK_NAK_RECEIVE (R462). -/
  | linkNakReceive (flit : Nat)
  /-- LINK_ACK_RECEIVE (R463). -/
  | linkAckReceive (flit : Nat)
  /-- LINK_ACK_TIMEOUT (R462). -/
  | linkAckTimeout
  /-- LINK_RETRAIN_COMPLETE (R462). -/
  | linkRetrainComplete (t : Training)
  /-- KEY_ROLLOVER (R463). -/
  | keyRollover
  /-- SHUTON_MARKER_RECEIVE (R394). -/
  | shutonMarkerReceive (port : Nat) (id : W32)
  /-- POWER_GOOD (R377). -/
  | powerGood
  /-- IMAGE_VERIFIED (R469). -/
  | imageVerified (okA okB : Bool)
  /-- SAFE_FUNCTION (R377). -/
  | safeFunction (link : Training) (stk : List Training)
  /-- FULL_FUNCTION (R378). -/
  | fullFunction (stk ports : List Training)
  /-- RECOVERY_IMAGE_WRITE (R469). -/
  | recoveryImageWrite (image : List Byte)
  /-- MODULE_RESET (R380). -/
  | moduleReset
  /-- ORDERLY_POWER_DOWN (R383). -/
  | orderlyPowerDown
  /-- THERMAL_SAMPLE (R383). -/
  | thermalSample (temps : List Int)
  /-- WEAR_HOURLY_WRITE (R383). -/
  | wearHourlyWrite
  /-- PATROL_SCRUB (R436). -/
  | patrolScrub (sector : Damage) (bad : Bool)
  /-- FIRMWARE_WATCHDOG_EXPIRY (R466). -/
  | firmwareWatchdogExpiry (die : Nat) (recent : Bool)
  /-- ILLEGAL_INSTRUCTION (R133). -/
  | illegalInstruction (kind : Nat) (word : W32)
  /-- FETCH_FAULT (R111). -/
  | fetchFault
  /-- COPY_COMPLETE (R367). -/
  | copyComplete (vf q : Nat)
  /-- PLANE_CLEAR (R332). -/
  | planeClear (asn : Nat)
  /-- WIPE_ACKNOWLEDGED (R381). -/
  | wipeAcknowledged (frame : Nat)
  /-- FIRMWARE_RELOAD_COMPLETE (R466). -/
  | firmwareReloadComplete (die : Nat)
  /-- POWER_LOSS (R383). -/
  | powerLoss
  deriving DecidableEq, Repr

end Sys2Proof
end

