-- ==== Sys2Proof/WellFormed.lean ====
section
/-! DEFINITION. Which instructions have an encoding: the pair, run and cross-field rules of R112, R113, R119 to R132 that the types of
Syntax do not already hold. -/

namespace Sys2Proof

/-- A field that names a 64-bit pair holds an even value (R112). -/
def VSrc.even : VSrc → Bool
  | .row r => r.val % 2 == 0
  | .slot b => b.val % 2 == 0

/-- A source run: a multiple of 4 no greater than `top`, never a slot (R112). -/
def VSrc.run (top : Nat) : VSrc → Bool
  | .row r => r.val % 4 == 0 && decide (r.val ≤ top)
  | .slot _ => false

/-- A source is row v0, the encoding 0. -/
def VSrc.isZero : VSrc → Bool
  | .row r => r.val == 0
  | .slot _ => false

/-- A destination pair (R112). -/
def evenReg (d : VReg) : Bool := d.val % 2 == 0
/-- A destination run (R112). -/
def runReg (top : Nat) (d : VReg) : Bool := d.val % 4 == 0 && decide (d.val ≤ top)

/-- ty 11 of the integer majors names pairs (R119). -/
def wfInt (f : V3 IntTy) : Bool := f.ty != .p64 || (evenReg f.d && f.a.even && f.b.even)
/-- ty 11 of the float majors names pairs (R119). -/
def wfFlo (f : V3 FloTy) : Bool := f.ty != .f64 || (evenReg f.d && f.a.even && f.b.even)
/-- `setp` (R154). -/
def wfSetp (f : VP) : Bool :=
  match f.ty with
  | .i32 => decide (f.cc.val < 6) || f.b.isZero
  | .i64 => f.a.even && f.b.even && (decide (f.cc.val < 6) || f.b.isZero)
  | .f32 => true
  | .f64 => f.a.even && f.b.even
/-- The source of a conversion code is a pair (R159). -/
def cvtSrcPair (c : Nat) : Bool :=
  c == 2 || c == 3 || c == 6 || c == 7 || (decide (12 ≤ c) && decide (c ≤ 15)) || c == 20 || c == 22 || c == 28 || c == 29 || c == 34
/-- The destination of a conversion code is a pair (R159). -/
def cvtDstPair (c : Nat) : Bool :=
  (decide (4 ≤ c) && decide (c ≤ 7)) || c == 10 || c == 11 || c == 14 || c == 15 || c == 21 || c == 23 || (decide (30 ≤ c) && decide (c ≤ 33))
/-- `cvt` (R123, R159). -/
def wfCvt (f : VCvt) : Bool :=
  (!cvtSrcPair f.code || f.a.even) && (!cvtDstPair f.code || evenReg f.d)
/-- A compact source is v0 to v27 or a slot (R117). -/
def C16.wf (f : C16) : Bool := match f.e with | .row r => decide (r.val < 28) | .slot _ => true
/-- The frame fields of `call` (R129). -/
def CL.wf (f : CL) : Bool := decide (1 ≤ f.nv.val) && decide (f.k.val ≤ f.nv.val)
/-- The frame fields of `calli` (R129). -/
def CI.wf (f : CI) : Bool := decide (1 ≤ f.nv.val) && decide (f.k.val ≤ f.nv.val)
/-- An address pair and a row. -/
def XAtom.wf32 (f : XAtom) : Bool := f.a.even
/-- An address pair and a pair. -/
def XAtom.wf64 (f : XAtom) : Bool := f.a.even && evenReg f.d
/-- `cas.32`: two rows from an even row (R220). -/
def XAtom.wfCas32 (f : XAtom) : Bool := f.a.even && evenReg f.d
/-- `cas.64`: two pairs (R220). -/
def XAtom.wfCas64 (f : XAtom) : Bool := f.a.even && evenReg f.d && decide (f.d.val ≤ 56)
/-- `st.rel.32`, `red` on 32 bits. -/
def XRel.wf32 (f : XRel) : Bool := f.a.even
/-- `st.rel.64`, `red` on 64 bits. -/
def XRel.wf64 (f : XRel) : Bool := f.a.even && f.d.even
/-- The registers that `ssr` may name (R135). -/
def SpReg.writable : SpReg → Bool
  | .srseed | .trapcode | .trapval | .xqsel => true
  | _ => false

/-- The instruction has an encoding. A step of another agent has none and no condition. -/
def Instr.wf : Instr → Bool
  | .add f => wfInt f
  | .sub f => wfInt f
  | .mul f => wfInt f
  | .mulhS f => wfInt f
  | .mulhZ f => wfInt f
  | .mad f => wfInt f
  | .minS f => wfInt f
  | .minZ f => wfInt f
  | .maxS f => wfInt f
  | .maxZ f => wfInt f
  | .and f => wfInt f
  | .or f => wfInt f
  | .xor f => wfInt f
  | .andn f => wfInt f
  | .shl f => wfInt f
  | .shr f => wfInt f
  | .sar f => wfInt f
  | .rotl f => wfInt f
  | .adds f => wfInt f
  | .subs f => wfInt f
  | .addi _ => true
  | .andi _ => true
  | .ori _ => true
  | .xori _ => true
  | .shli _ => true
  | .shri _ => true
  | .sari _ => true
  | .movi _ => true
  | .fadd f => wfFlo f
  | .fsub f => wfFlo f
  | .fmul f => wfFlo f
  | .fma f => wfFlo f
  | .fmin f => wfFlo f
  | .fmax f => wfFlo f
  | .fdot2 _ => true
  | .setp f => wfSetp f
  | .setpi f => decide (f.cc.val < 6) || f.imm == 0
  | .pand _ => true
  | .por _ => true
  | .pxor _ => true
  | .pandn _ => true
  | .pnot _ => true
  | .pmov _ => true
  | .pset _ => true
  | .pclr _ => true
  | .sel f => !f.pair || (evenReg f.d && f.a.even && f.b.even)
  | .mov f => !f.pair || (evenReg f.d && f.a.even)
  | .abs f => !f.pair || (evenReg f.d && f.a.even)
  | .neg f => !f.pair || (evenReg f.d && f.a.even)
  | .not f => !f.pair || (evenReg f.d && f.a.even)
  | .clz _ => true
  | .popc _ => true
  | .brev _ => true
  | .fabs _ => true
  | .fneg _ => true
  | .frcp _ => true
  | .frsq _ => true
  | .fsqrt _ => true
  | .fexp2 _ => true
  | .flog2 _ => true
  | .frndN _ => true
  | .frndZ _ => true
  | .frndM _ => true
  | .frndP _ => true
  | .fclass _ => true
  | .cvt f => wfCvt f
  | .cvtnPk f => f.a.run 56
  | .cvtnUnpk f => runReg 56 f.d
  | .cvtnBscale f => f.a.run 56
  | .bfxS _ => true
  | .bfxZ _ => true
  | .bfi _ => true
  | .shflIdx _ => true
  | .shflUp _ => true
  | .shflDn _ => true
  | .shflXor _ => true
  | .voteAny _ => true
  | .voteAll _ => true
  | .voteEq _ => true
  | .ballot _ => true
  | .ballotCnt _ => true
  | .redx _ => true
  | .scan _ => true
  | .vmovs _ => true
  | .smovv _ => true
  | .vins _ => true
  | .sadd _ => true
  | .ssub _ => true
  | .smul _ => true
  | .smulh _ => true
  | .sdiv _ => true
  | .sdivz _ => true
  | .srem _ => true
  | .sand _ => true
  | .sor _ => true
  | .sxor _ => true
  | .sshl _ => true
  | .sshr _ => true
  | .ssar _ => true
  | .smin _ => true
  | .smax _ => true
  | .sminz _ => true
  | .smaxz _ => true
  | .smov _ _ => true
  | .sslt _ => true
  | .ssltz _ => true
  | .sseq _ => true
  | .saddi _ _ _ => true
  | .sli _ => true
  | .slh _ => true
  | .slx _ => true
  | .movCompact f => f.wf && !(f.e.isZero && f.d.val == 0)
  | .addCompact f => f.wf
  | .subCompact f => f.wf
  | .andCompact f => f.wf
  | .orCompact f => f.wf
  | .xorCompact f => f.wf
  | .shlCompact f => f.wf
  | .shrCompact f => f.wf
  | .faddCompact f => f.wf
  | .fsubCompact f => f.wf
  | .fmulCompact f => f.wf
  | .minCompact f => f.wf
  | .maxCompact f => f.wf
  | .mulCompact f => f.wf
  | .addq _ => true
  | .movq _ => true
  | .bra _ _ => true
  | .brs _ _ _ => true
  | .call f => f.wf
  | .calli f => f.wf
  | .ret _ => true
  | .unwind _ => true
  | .jmp _ => true
  | .reform => true
  | .exit => true
  | .yield => true
  | .nop => true
  | .trap _ => true
  | .brk _ => true
  | .rti => true
  | .suspect _ => true
  | .probe _ _ => true
  | .loop _ _ => true
  | .ldS8 _ => true
  | .ldZ8 _ => true
  | .ldS16 _ => true
  | .ldZ16 _ => true
  | .ld32 _ => true
  | .ld64 f => evenReg f.v
  | .ld128 f => runReg 56 f.v
  | .st8 _ => true
  | .st16 _ => true
  | .st32 _ => true
  | .st64 f => f.v.even
  | .st128 f => f.v.run 56
  | .pf _ => true
  | .ldl32 _ => true
  | .stl32 _ => true
  | .lds32 _ => true
  | .lds64 f => evenReg f.d
  | .lds128 f => runReg 56 f.d
  | .sts32 _ => true
  | .sts64 f => f.d.even
  | .sts128 f => f.d.run 56
  | .ldw32 _ => true
  | .ldw64 f => evenReg f.d
  | .sldw _ => true
  | .ldAcq32 f => f.a.even
  | .ldAcq64 f => f.a.even && evenReg f.d
  | .stRel32 f => f.wf32
  | .stRel64 f => f.wf64
  | .atomAdd32 f => f.wf32
  | .atomMinS32 f => f.wf32
  | .atomMinZ32 f => f.wf32
  | .atomMaxS32 f => f.wf32
  | .atomMaxZ32 f => f.wf32
  | .atomAnd32 f => f.wf32
  | .atomOr32 f => f.wf32
  | .atomXor32 f => f.wf32
  | .atomXchg32 f => f.wf32
  | .atomCas32 f => f.wfCas32
  | .atomFadd32 f => f.wf32
  | .atomAdd64 f => f.wf64
  | .atomMinS64 f => f.wf64
  | .atomMinZ64 f => f.wf64
  | .atomMaxS64 f => f.wf64
  | .atomMaxZ64 f => f.wf64
  | .atomAnd64 f => f.wf64
  | .atomOr64 f => f.wf64
  | .atomXor64 f => f.wf64
  | .atomXchg64 f => f.wf64
  | .atomCas64 f => f.wfCas64
  | .atomFadd64 f => f.wf64
  | .atomAddAr32 f => f.wf32
  | .atomMinSAr32 f => f.wf32
  | .atomMinZAr32 f => f.wf32
  | .atomMaxSAr32 f => f.wf32
  | .atomMaxZAr32 f => f.wf32
  | .atomAndAr32 f => f.wf32
  | .atomOrAr32 f => f.wf32
  | .atomXorAr32 f => f.wf32
  | .atomXchgAr32 f => f.wf32
  | .atomCasAr32 f => f.wfCas32
  | .atomFaddAr32 f => f.wf32
  | .atomAddAr64 f => f.wf64
  | .atomMinSAr64 f => f.wf64
  | .atomMinZAr64 f => f.wf64
  | .atomMaxSAr64 f => f.wf64
  | .atomMaxZAr64 f => f.wf64
  | .atomAndAr64 f => f.wf64
  | .atomOrAr64 f => f.wf64
  | .atomXorAr64 f => f.wf64
  | .atomXchgAr64 f => f.wf64
  | .atomCasAr64 f => f.wfCas64
  | .atomFaddAr64 f => f.wf64
  | .redAdd32 f => f.wf32
  | .redMinS32 f => f.wf32
  | .redMinZ32 f => f.wf32
  | .redMaxS32 f => f.wf32
  | .redMaxZ32 f => f.wf32
  | .redAnd32 f => f.wf32
  | .redOr32 f => f.wf32
  | .redXor32 f => f.wf32
  | .redXchg32 f => f.wf32
  | .redFadd32 f => f.wf32
  | .redAdd64 f => f.wf64
  | .redMinS64 f => f.wf64
  | .redMinZ64 f => f.wf64
  | .redMaxS64 f => f.wf64
  | .redMaxZ64 f => f.wf64
  | .redAnd64 f => f.wf64
  | .redOr64 f => f.wf64
  | .redXor64 f => f.wf64
  | .redXchg64 f => f.wf64
  | .redFadd64 f => f.wf64
  | .fence _ => true
  | .fenceAcq _ => true
  | .fenceRel _ => true
  | .bar _ => true
  | .barArr _ => true
  | .barWt _ => true
  | .semSet _ => true
  | .semAdd _ => true
  | .semWait _ _ => true
  | .hpush _ => true
  | .hpop _ => true
  | .hpeek _ => true
  | .enqCopy _ => true
  | .enqGather _ => true
  | .enqScatter _ => true
  | .enqFill _ => true
  | .enqColl _ => true
  | .wpop _ => true
  | .wpush _ => true
  | .launch _ => true
  | .rlnch _ => true
  | .dmark => true
  | .pdep item _ => item.run 44
  | .pcopy f => f.p.run 44 && runReg 44 f.d
  | .ptake f => f.p.run 44 && runReg 44 f.d
  | .gsr _ _ => true
  | .gsrv _ _ _ => true
  | .ssr r _ => r.writable
  | .clk _ => true
  | .lclk _ => true
  | .spool _ _ => true
  | .bound _ _ => true
  | .poison a _ => a.even
  | .mx f => runReg 56 f.a && runReg 56 f.b
  | .mxSp f => runReg 56 f.a && runReg 56 f.b
  | .mzero _ => true
  | .mld f => f.a.even
  | .mst f => f.a.even
  | .mmovVm _ _ _ => true
  | .mmovMv _ _ _ => true
  | .mxq _ _ => true
  | .loadLand _ _ => true
  | .storeDrain _ => true
  | .atomicPerform _ => true
  | .releaseComplete _ => true
  | .translationWalkComplete _ _ _ => true
  | .cellarSpillAck _ => true
  | .refillComplete _ => true
  | .reformBinTimeout _ _ => true
  | .reformBinLeave _ => true
  | .yieldTimeout _ => true
  | .trapRecordWrite _ => true
  | .faultPark _ => true
  | .launchAnswer _ => true
  | .jobStart _ _ => true
  | .jobChunkDone _ _ => true
  | .jobComplete _ _ => true
  | .collectiveStep _ _ _ => true
  | .mxStart _ => true
  | .mxComplete _ => true
  | .pantryCopyArrive _ => true
  | .pantryTakeArrive _ => true
  | .pantryDepositArrive _ => true
  | .pantryWithdrawalArrive _ => true
  | .pantryHeldResend _ => true
  | .pantryAnswerLand _ => true
  | .wpopDeliver _ _ => true
  | .wpushAppend _ _ => true
  | .messageReceive _ _ => true
  | .teamPlace _ => true
  | .teamMove _ _ => true
  | .sliceEnd _ => true
  | .enginePreemptAck _ _ => true
  | .preemptTimeout _ => true
  | .hangWindowEnd => true
  | .studyMigrationArrive _ _ => true
  | .studyReturnComplete _ _ _ _ => true
  | .launchCmd _ _ => true
  | .relaunch _ _ => true
  | .append _ _ => true
  | .copy _ _ => true
  | .signal _ _ => true
  | .wait _ _ => true
  | .waitRetest _ _ => true
  | .mark _ _ => true
  | .studyArm _ _ => true
  | .studyMark _ _ => true
  | .studyReturn _ _ => true
  | .studyResume _ _ => true
  | .inval _ _ => true
  | .answer _ _ => true
  | .vfconfTrapVector _ _ => true
  | .vfconfServiceRing _ _ => true
  | .vfconfErrorRing _ _ => true
  | .vfconfPriorityCap _ _ => true
  | .vfconfSliceLength _ _ => true
  | .vfconfAddressSpace _ _ => true
  | .vfconfPartition _ _ => true
  | .vfconfPantryAllocate _ _ => true
  | .vfconfPantryFree _ _ => true
  | .wqconfCreate _ _ => true
  | .wqconfDestroy _ _ => true
  | .doorbell _ _ _ => true
  | .qcbaddr _ _ _ => true
  | .svccons _ _ => true
  | .errcons _ _ => true
  | .exansAcknowledge _ _ _ => true
  | .exansResume _ _ _ => true
  | .exansSkip _ _ _ => true
  | .exansAbort _ _ _ => true
  | .pfErrorRingSet _ _ => true
  | .pferrcons _ => true
  | .cut _ => true
  | .cutResume _ => true
  | .partWrite _ _ => true
  | .registerWrite _ _ _ => true
  | .hostApertureWrite _ _ _ => true
  | .hostApertureRead _ _ _ => true
  | .linkFlitReceive _ _ _ _ => true
  | .linkNakReceive _ => true
  | .linkAckReceive _ => true
  | .linkAckTimeout => true
  | .linkRetrainComplete _ => true
  | .keyRollover => true
  | .shutonMarkerReceive _ _ => true
  | .powerGood => true
  | .imageVerified _ _ => true
  | .safeFunction _ _ => true
  | .fullFunction _ _ => true
  | .recoveryImageWrite _ => true
  | .moduleReset => true
  | .orderlyPowerDown => true
  | .thermalSample _ => true
  | .wearHourlyWrite => true
  | .patrolScrub _ _ => true
  | .firmwareWatchdogExpiry _ _ => true
  | .illegalInstruction _ _ => true
  | .fetchFault => true
  | .copyComplete _ _ => true
  | .planeClear _ => true
  | .wipeAcknowledged _ => true
  | .firmwareReloadComplete _ => true
  | .powerLoss => true

end Sys2Proof
end

