-- ==== Sys2Proof/Decode.lean ====
section
/-! DEFINITION. The decoder (R109 to R135, R413), total on any word and refusing by kind, and after it the encoder. -/

namespace Sys2Proof

/-- Bits [lo+n-1:lo] of a word. -/
def fld (w lo n : Nat) : Nat := w / 2 ^ lo % 2 ^ n

/-- What the decoder answers: an instruction, or the kind of the illegal-instruction fault (R413). -/
inductive Dec where
  | ok (i : Instr)
  | bad (kind : Nat)
  deriving DecidableEq, Repr

/-- The lowest kind that applies (R413); 0 when none does. -/
def lowest : List (Bool × Nat) → Nat
  | [] => 0
  | (c, k) :: t => if c then (if lowest t = 0 then k else min k (lowest t)) else lowest t

/-- Answer `i` unless some check fails. -/
def pick (cs : List (Bool × Nat)) (i : Instr) : Dec :=
  if lowest cs = 0 then .ok i else .bad (lowest cs)

/-- R112, a source field. -/
def VSrc.of (n : Nat) : VSrc := if n < 60 then .row (Fin.ofNat 60 n) else .slot (Fin.ofNat 4 (n - 60))
/-- The value of a source field. -/
def VSrc.code : VSrc → Nat
  | .row r => r.val
  | .slot b => 60 + b.val
/-- R112, a destination field. -/
def VReg.of (n : Nat) : VReg := Fin.ofNat 60 n
/-- R113, a predicate field. -/
def PReg.of (n : Nat) : PReg := Fin.ofNat 12 n
/-- R113, a scalar field. -/
def SReg.of (n : Nat) : SReg := Fin.ofNat 32 n
/-- R113, the guard. -/
def Guard.of (n : Nat) : Guard := if n = 0 then none else some (Fin.ofNat 12 (n - 1))
/-- The value of a guard field. -/
def Guard.code : Guard → Nat
  | none => 0
  | some p => p.val + 1
/-- ty of the integer majors (R83). -/
def IntTy.of : Nat → IntTy
  | 0 => .w32 | 1 => .h16 | 2 => .b8 | _ => .p64
/-- The value of ty. -/
def IntTy.code : IntTy → Nat
  | .w32 => 0 | .h16 => 1 | .b8 => 2 | .p64 => 3
/-- ty of the float majors (R119). -/
def FloTy.of : Nat → FloTy
  | 0 => .f32 | 1 => .f16 | 2 => .bf16 | _ => .f64
/-- The value of ty. -/
def FloTy.code : FloTy → Nat
  | .f32 => 0 | .f16 => 1 | .bf16 => 2 | .f64 => 3
/-- ty of `setp` (R119). -/
def SetTy.of : Nat → SetTy
  | 0 => .i32 | 1 => .i64 | 2 => .f32 | _ => .f64
/-- The value of ty. -/
def SetTy.code : SetTy → Nat
  | .i32 => 0 | .i64 => 1 | .f32 => 2 | .f64 => 3
/-- Rounding modes (R89). -/
def Rnd.of : Nat → Rnd
  | 0 => .rn | 1 => .rz | 2 => .rm | _ => .rp
/-- The value of the mode. -/
def Rnd.code : Rnd → Nat
  | .rn => 0 | .rz => 1 | .rm => 2 | .rp => 3
/-- Scopes (R113). -/
def Scope.of : Nat → Scope
  | 0 => .grp | 1 => .team | 2 => .suite | 3 => .die | 4 => .pkg | _ => .sys
/-- The value of a scope. -/
def Scope.code : Scope → Nat
  | .grp => 0 | .team => 1 | .suite => 2 | .die => 3 | .pkg => 4 | .sys => 5
/-- Barrier levels (R113). -/
def Level.of : Nat → Level
  | 0 => .team | 1 => .suite | 2 => .die | _ => .grid
/-- The value of a level. -/
def Level.code : Level → Nat
  | .team => 0 | .suite => 1 | .die => 2 | .grid => 3
/-- Conditions of `brs` (R175). -/
def BrCc.of : Nat → BrCc
  | 0 => .eqz | 1 => .nez | 2 => .ltz | 3 => .lez | 4 => .gtz | _ => .gez
/-- The value of the condition. -/
def BrCc.code : BrCc → Nat
  | .eqz => 0 | .nez => 1 | .ltz => 2 | .lez => 3 | .gtz => 4 | .gez => 5
/-- Operations of `redx` and `scan` (R125). -/
def RedOp.of : Nat → RedOp
  | 0 => .addInt | 1 => .addF32 | 2 => .minS | 3 => .maxS | 4 => .minF32 | 5 => .maxF32 | 6 => .and | _ => .or
/-- The value of the operation. -/
def RedOp.code : RedOp → Nat
  | .addInt => 0 | .addF32 => 1 | .minS => 2 | .maxS => 3 | .minF32 => 4 | .maxF32 => 5 | .and => 6 | .or => 7
/-- Special registers by number (R199). -/
def SpReg.of : Nat → SpReg
  | 0 => .lane | 1 => .tid | 2 => .group | 3 => .ngroup | 4 => .role | 5 => .teamX | 6 => .teamY | 7 => .teamZ
  | 8 => .nteamX | 9 => .nteamY | 10 => .nteamZ | 11 => .suite | 12 => .gang | 13 => .die | 14 => .ndie | 15 => .dieclass
  | 16 => .grid | 17 => .core | 18 => .fdepth | 19 => .unw | 20 => .srseed | 21 => .rbk | 22 => .trapcode | 23 => .trapval
  | 24 => .studied | 25 => .part | 26 => .vf | 27 => .gen | _ => .xqsel
/-- The number of a special register (R199). -/
def SpReg.code : SpReg → Nat
  | .lane => 0 | .tid => 1 | .group => 2 | .ngroup => 3 | .role => 4 | .teamX => 5 | .teamY => 6 | .teamZ => 7
  | .nteamX => 8 | .nteamY => 9 | .nteamZ => 10 | .suite => 11 | .gang => 12 | .die => 13 | .ndie => 14 | .dieclass => 15
  | .grid => 16 | .core => 17 | .fdepth => 18 | .unw => 19 | .srseed => 20 | .rbk => 21 | .trapcode => 22 | .trapval => 23
  | .studied => 24 | .part => 25 | .vf => 26 | .gen => 27 | .xqsel => 28

/-- A bit field. -/
def bit (w lo : Nat) : Bool := fld w lo 1 == 1
/-- A guard of 13 to 15 is illegal (R113). -/
def kGuard (w : Nat) : Bool × Nat := (decide (12 < fld w 7 4), 0x0104)
/-- The majors whose g is 0 (R118). -/
def kG0 (w : Nat) : Bool × Nat := (fld w 7 4 != 0, 0x0103)
/-- A reserved span (R133). -/
def kZero (x : Nat) : Bool × Nat := (x != 0, 0x0103)
/-- A destination field that names a slot (R133). -/
def kDest (x : Nat) : Bool × Nat := (decide (60 ≤ x), 0x0105)
/-- A pair field (R112). -/
def kPair (c : Bool) (x : Nat) : Bool × Nat := (c && x % 2 == 1, 0x0106)
/-- A run field (R112). -/
def kRun (x top : Nat) : Bool × Nat := (x % 4 != 0 || decide (top < x), 0x0106)
/-- A field value marked illegal (R133). -/
def kVal (c : Bool) : Bool × Nat := (c, 0x0104)
/-- An unassigned ty, cc, sub, fn, op4, sub4 or sub8 value (R133). -/
def kSub (c : Bool) : Bool × Nat := (c, 0x0102)
/-- A predicate field (R113). -/
def kPred (x : Nat) : Bool × Nat := (decide (12 ≤ x), 0x0104)

/-- The fields of V3 for two sources. -/
def V2.of (w : Nat) : V2 := ⟨.of (fld w 24 6), .of (fld w 18 6), bit w 17, .of (fld w 11 6), .of (fld w 7 4)⟩
/-- The fields of a unary. -/
def U1.of (w : Nat) : U1 := ⟨.of (fld w 18 6), bit w 17, .of (fld w 11 6), .of (fld w 7 4)⟩
/-- The fields of a unary with a 64-bit form. -/
def U2.of (w : Nat) : U2 := ⟨fld w 30 2 == 3, .of (fld w 18 6), bit w 17, .of (fld w 11 6), .of (fld w 7 4)⟩
/-- V3 of the integer majors. -/
def V3.ofInt (w : Nat) : V3 IntTy := ⟨.of (fld w 30 2), .of (fld w 24 6), .of (fld w 18 6), bit w 17, .of (fld w 11 6), .of (fld w 7 4)⟩
/-- V3 of the float majors. -/
def V3.ofFlo (w : Nat) : V3 FloTy := ⟨.of (fld w 30 2), .of (fld w 24 6), .of (fld w 18 6), bit w 17, .of (fld w 11 6), .of (fld w 7 4)⟩
/-- Format VI. -/
def VI.of (w : Nat) : VI := ⟨BitVec.ofNat 8 (fld w 24 8), .of (fld w 18 6), bit w 17, .of (fld w 11 6), .of (fld w 7 4)⟩
/-- Format VI of the immediate shifts. -/
def VIs.of (w : Nat) : VIs := ⟨Fin.ofNat 32 (fld w 24 5), .of (fld w 18 6), bit w 17, .of (fld w 11 6), .of (fld w 7 4)⟩
/-- Checks of V3 with the pair rule of R119. -/
def kV3 (w : Nat) : List (Bool × Nat) :=
  let p := fld w 30 2 == 3
  [kGuard w, kDest (fld w 11 6), kPair p (fld w 11 6), kPair p (fld w 18 6), kPair p (fld w 24 6)]
/-- The shared checks of a guarded format with a destination row. -/
def kGD (w : Nat) : List (Bool × Nat) := [kGuard w, kDest (fld w 11 6)]

/-- Majors 1 to 20. -/
def decInt (w : Nat) (mk : V3 IntTy → Instr) : Dec := pick (kV3 w) (mk (.ofInt w))
/-- Majors 29 to 34. -/
def decFlo (w : Nat) (mk : V3 FloTy → Instr) : Dec := pick (kV3 w) (mk (.ofFlo w))
/-- Majors 21 to 24. -/
def decImm (w : Nat) (mk : VI → Instr) : Dec := pick (kGD w) (mk (.of w))
/-- Majors 25 to 27. -/
def decShi (w : Nat) (mk : VIs → Instr) : Dec := pick (kVal (fld w 29 3 != 0) :: kGD w) (mk (.of w))
/-- Unary sub-ops 0 to 3 (R122). -/
def decU2 (w : Nat) (mk : U2 → Instr) : Dec :=
  let p := fld w 30 2 == 3
  pick (kSub (fld w 30 2 == 1 || fld w 30 2 == 2) :: kPair p (fld w 11 6) :: kPair p (fld w 18 6) :: kGD w) (mk (.of w))
/-- Unary sub-ops 4 to 19 (R122). -/
def decU1 (w : Nat) (mk : U1 → Instr) : Dec := pick (kSub (fld w 30 2 != 0) :: kGD w) (mk (.of w))

/-- Major 40 (R122). -/
def decUnary (w : Nat) : Dec :=
  match fld w 24 6 with
  | 0 => decU2 w .mov | 1 => decU2 w .abs | 2 => decU2 w .neg | 3 => decU2 w .not
  | 4 => decU1 w .clz | 5 => decU1 w .popc | 6 => decU1 w .brev | 8 => decU1 w .fabs | 9 => decU1 w .fneg
  | 10 => decU1 w .frcp | 11 => decU1 w .frsq | 12 => decU1 w .fsqrt | 13 => decU1 w .fexp2 | 14 => decU1 w .flog2
  | 15 => decU1 w .frndN | 16 => decU1 w .frndZ | 17 => decU1 w .frndM | 18 => decU1 w .frndP | 19 => decU1 w .fclass
  | _ => .bad 0x0102

/-- Major 38 (R155). -/
def decPL (w : Nat) : Dec :=
  let pb := fld w 19 4
  let pa := fld w 15 4
  let k := [kGuard w, kZero (fld w 26 6), kPred (fld w 11 4), kPred pa, kPred pb]
  let f3 : PL3 := ⟨.of pb, .of pa, .of (fld w 11 4), .of (fld w 7 4)⟩
  let f2 : PL2 := ⟨.of pa, .of (fld w 11 4), .of (fld w 7 4)⟩
  let f1 : PL1 := ⟨.of (fld w 11 4), .of (fld w 7 4)⟩
  match fld w 23 3 with
  | 0 => pick k (.pand f3) | 1 => pick k (.por f3) | 2 => pick k (.pxor f3) | 3 => pick k (.pandn f3)
  | 4 => pick (kVal (pb != 0) :: k) (.pnot f2) | 5 => pick (kVal (pb != 0) :: k) (.pmov f2)
  | 6 => pick (kVal (pa != 0 || pb != 0) :: k) (.pset f1) | _ => pick (kVal (pa != 0 || pb != 0) :: k) (.pclr f1)

/-- Major 45 (R124). -/
def decLV (w : Nat) : Dec :=
  let k := [kGuard w, kZero (fld w 23 9), kPred (fld w 16 4)]
  let kp := kPred (fld w 11 5) :: k
  let fp : PL2 := ⟨.of (fld w 16 4), .of (fld w 11 5), .of (fld w 7 4)⟩
  let fs : LVs := ⟨.of (fld w 16 4), .of (fld w 11 5), .of (fld w 7 4)⟩
  match fld w 20 3 with
  | 0 => pick kp (.voteAny fp) | 1 => pick kp (.voteAll fp) | 2 => pick kp (.voteEq fp)
  | 3 => pick k (.ballot fs) | 4 => pick k (.ballotCnt fs)
  | _ => .bad 0x0102

/-- Major 48 (R126). -/
def decMV (w : Nat) : Dec :=
  let k := [kGuard w, kZero (fld w 30 2)]
  let d := kDest (fld w 11 6)
  match fld w 22 2 with
  | 0 => pick (kVal (fld w 24 6 != 0) :: d :: k) (.vmovs ⟨.of (fld w 17 5), .of (fld w 11 6), .of (fld w 7 4)⟩)
  | 1 => pick k (.smovv ⟨Fin.ofNat 64 (fld w 24 6), .of (fld w 17 5), .of (fld w 11 6), .of (fld w 7 4)⟩)
  | 2 => pick (d :: k) (.vins ⟨Fin.ofNat 64 (fld w 24 6), .of (fld w 17 5), .of (fld w 11 6), .of (fld w 7 4)⟩)
  | _ => .bad 0x0102

/-- Format SS. -/
def SS.of (w : Nat) : SS := ⟨.of (fld w 21 5), .of (fld w 16 5), .of (fld w 11 5)⟩

/-- Major 49 (R127). -/
def decSop (w : Nat) : Dec :=
  let f := SS.of w
  let p (i : Instr) : Dec := pick [kG0 w] i
  match fld w 26 6 with
  | 0 => p (.sadd f) | 1 => p (.ssub f) | 2 => p (.smul f) | 3 => p (.smulh f) | 4 => p (.sdiv f) | 5 => p (.sdivz f) | 6 => p (.srem f)
  | 7 => p (.sand f) | 8 => p (.sor f) | 9 => p (.sxor f) | 10 => p (.sshl f) | 11 => p (.sshr f) | 12 => p (.ssar f) | 13 => p (.smin f)
  | 14 => p (.smax f) | 15 => p (.sminz f) | 16 => p (.smaxz f)
  | 17 => pick [kG0 w, kVal (fld w 21 5 != 0)] (.smov f.sa f.sd)
  | 18 => p (.sslt f) | 19 => p (.ssltz f) | 20 => p (.sseq f)
  | _ => .bad 0x0102

/-- Major 58 (R128). -/
def decCT (w : Nat) : Dec :=
  let z := pick [kZero (fld w 11 21)]
  let c : BitVec 16 := BitVec.ofNat 16 (fld w 11 16)
  let sa : SReg := .of (fld w 11 5)
  match fld w 7 4 with
  | 0 => pick [kZero (fld w 14 18)] (.ret (Fin.ofNat 8 (fld w 11 3)))
  | 1 => pick [kZero (fld w 16 16)] (.unwind sa) | 2 => pick [kZero (fld w 16 16)] (.jmp sa)
  | 3 => z .reform | 4 => z .exit | 5 => z .yield | 6 => z .nop
  | 7 => pick [kZero (fld w 27 5)] (.trap c) | 8 => pick [kZero (fld w 27 5)] (.brk c) | 9 => z .rti
  | 10 => pick [kZero (fld w 27 5)] (.suspect c)
  | 11 => pick [kZero (fld w 24 8)] (.probe (BitVec.ofNat 8 (fld w 16 8)) sa)
  | _ => .bad 0x0102

/-- Major 60 (R131). -/
def decM (w : Nat) : Dec :=
  let v := fld w 11 6
  let l : ML := ⟨.of (fld w 22 6), .of (fld w 17 5), .of v, .of (fld w 7 4)⟩
  let s : MS := ⟨.of (fld w 22 6), .of (fld w 17 5), .of v, .of (fld w 7 4)⟩
  let ld := kGD w
  let st := [kGuard w]
  match fld w 28 4 with
  | 0 => pick ld (.ldS8 l) | 1 => pick ld (.ldZ8 l) | 2 => pick ld (.ldS16 l) | 3 => pick ld (.ldZ16 l) | 4 => pick ld (.ld32 l)
  | 5 => pick (kPair true v :: ld) (.ld64 l) | 6 => pick (kRun v 56 :: ld) (.ld128 l)
  | 7 => pick st (.st8 s) | 8 => pick st (.st16 s) | 9 => pick st (.st32 s)
  | 10 => pick (kPair true v :: st) (.st64 s) | 11 => pick (kRun v 56 :: st) (.st128 s)
  | 12 => pick (kVal (v != 0) :: st) (.pf ⟨l.va, l.s, l.g⟩)
  | _ => .bad 0x0102

/-- Major 63 (R132). -/
noncomputable def decMX (w : Nat) : Dec :=
  let fw := fld w 26 6
  let dq := fld w 23 3
  let b := fld w 17 6
  let a := fld w 11 6
  let k := [kVal (decide (5 ≤ dq)), kRun a 56, kRun b 56]
  let f : MX := ⟨.of fw, Fin.ofNat 5 dq, .of b, .of a⟩
  let m : MXm := ⟨Fin.ofNat 8 dq, .of a⟩
  match fld w 7 4 with
  | 0 => pick k (.mx f) | 1 => pick k (.mxSp f)
  | 2 => pick [kZero a, kZero b, kZero fw] (.mzero (Fin.ofNat 8 dq))
  | 3 => pick [kZero b, kZero fw, kPair true a] (.mld m) | 4 => pick [kZero b, kZero fw, kPair true a] (.mst m)
  | 5 => pick [kZero (b / 16), kZero fw, kDest a] (.mmovVm (Fin.ofNat 8 dq) (Fin.ofNat 16 b) (.of a))
  | 6 => pick [kZero (b / 16), kZero fw] (.mmovMv (Fin.ofNat 8 dq) (Fin.ofNat 16 b) (.of a))
  | 7 => pick [kZero (b / 4), kZero dq, kZero fw] (.mxq (Fin.ofNat 4 b) (.of a))
  | _ => .bad 0x0102

/-- A scope field of 6 to 15 is illegal (R113). -/
def kScope (g : Nat) : Bool × Nat := (decide (6 ≤ g), 0x0104)
/-- A scalar in a six-bit field: bit 5 is 0 (R113). -/
def kScalar (x : Nat) : Bool × Nat := (decide (32 ≤ x), 0x0103)

/-- `atom` and `red` (R130, R220). -/
def decAtom (w : Nat) (wide cas : Bool) (at_ : XAtom → Instr) (rd : Option (XRel → Instr)) : Dec :=
  let f1 := fld w 11 6
  let f2 := fld w 17 6
  let c := Scope.of (fld w 7 4)
  let k := [kScope (fld w 7 4), kPair true f2, kPair (wide || cas) f1, (cas && wide && decide (56 < f1), 0x0106)]
  if bit w 23 then
    match rd with
    | some mk => pick k (mk ⟨.of f2, .of f1, c⟩)
    | none => pick (kVal true :: k) .nop
  else pick (kDest f1 :: k) (at_ ⟨.of f2, .of f1, c⟩)

/-- Major 62 (R130). -/
noncomputable def decX (w : Nat) : Dec :=
  let g := fld w 7 4
  let f1 := fld w 11 6
  let f2 := fld w 17 6
  let f3 := fld w 23 1
  let nw := f3 == 1
  let gd := Guard.of g
  let lds : XLds := ⟨nw, .of f2, .of f1, gd⟩
  let sts : XSts := ⟨.of f2, .of f1, gd⟩
  let ldw : XLdw := ⟨nw, .of f2, .of f1, Fin.ofNat 16 g⟩
  let acq : XAcq := ⟨nw, .of f2, .of f1, .of g⟩
  let rel : XRel := ⟨.of f2, .of f1, .of g⟩
  let z3 := [kZero f1, kZero f2, kZero f3]
  let sem : XSem := ⟨.of f2, Fin.ofNat 64 f1, .of g⟩
  let hat : XHatch := ⟨.of f1, Fin.ofNat 8 g⟩
  let kh := [kVal (decide (8 ≤ g)), kScalar f1, kZero f2, kZero f3]
  let enq : XEnq := ⟨.of f1, gd⟩
  let ke := [kGuard w, kZero f2, kZero f3]
  let wq : XWq := ⟨.of f2, .of f1⟩
  let pan : XPan := ⟨nw, .of f2, .of f1, Fin.ofNat 16 g⟩
  let kp := [kRun f1 44, kDest f1, kRun f2 44]
  let r := SpReg.of f2
  let g0 := kZero g
  match fld w 24 8 with
  | 0 => pick [kGuard w, kDest f1] (.lds32 lds) | 1 => pick [kGuard w, kDest f1, kPair true f1] (.lds64 lds)
  | 2 => pick [kGuard w, kDest f1, kRun f1 56] (.lds128 lds)
  | 3 => pick [kGuard w, kZero f3] (.sts32 sts) | 4 => pick [kGuard w, kZero f3, kPair true f1] (.sts64 sts)
  | 5 => pick [kGuard w, kZero f3, kRun f1 56] (.sts128 sts)
  | 6 => pick [kDest f1] (.ldw32 ldw) | 7 => pick [kDest f1, kPair true f1] (.ldw64 ldw)
  | 8 => pick [kScalar f1, kScalar f2, kZero f3] (.sldw ⟨.of f2, .of f1, Fin.ofNat 16 g⟩)
  | 9 => pick [kScope g, kDest f1, kPair true f2] (.ldAcq32 acq)
  | 10 => pick [kScope g, kDest f1, kPair true f2, kPair true f1] (.ldAcq64 acq)
  | 11 => pick [kScope g, kZero f3, kPair true f2] (.stRel32 rel)
  | 12 => pick [kScope g, kZero f3, kPair true f2, kPair true f1] (.stRel64 rel)
  | 13 => decAtom w false false .atomAdd32 (some .redAdd32)
  | 14 => decAtom w false false .atomMinS32 (some .redMinS32)
  | 15 => decAtom w false false .atomMinZ32 (some .redMinZ32)
  | 16 => decAtom w false false .atomMaxS32 (some .redMaxS32)
  | 17 => decAtom w false false .atomMaxZ32 (some .redMaxZ32)
  | 18 => decAtom w false false .atomAnd32 (some .redAnd32)
  | 19 => decAtom w false false .atomOr32 (some .redOr32)
  | 20 => decAtom w false false .atomXor32 (some .redXor32)
  | 21 => decAtom w false false .atomXchg32 (some .redXchg32)
  | 22 => decAtom w false true .atomCas32 none
  | 23 => decAtom w false false .atomFadd32 (some .redFadd32)
  | 24 => decAtom w true false .atomAdd64 (some .redAdd64)
  | 25 => decAtom w true false .atomMinS64 (some .redMinS64)
  | 26 => decAtom w true false .atomMinZ64 (some .redMinZ64)
  | 27 => decAtom w true false .atomMaxS64 (some .redMaxS64)
  | 28 => decAtom w true false .atomMaxZ64 (some .redMaxZ64)
  | 29 => decAtom w true false .atomAnd64 (some .redAnd64)
  | 30 => decAtom w true false .atomOr64 (some .redOr64)
  | 31 => decAtom w true false .atomXor64 (some .redXor64)
  | 32 => decAtom w true false .atomXchg64 (some .redXchg64)
  | 33 => decAtom w true true .atomCas64 none
  | 34 => decAtom w true false .atomFadd64 (some .redFadd64)
  | 35 => decAtom w false false .atomAddAr32 none
  | 36 => decAtom w false false .atomMinSAr32 none
  | 37 => decAtom w false false .atomMinZAr32 none
  | 38 => decAtom w false false .atomMaxSAr32 none
  | 39 => decAtom w false false .atomMaxZAr32 none
  | 40 => decAtom w false false .atomAndAr32 none
  | 41 => decAtom w false false .atomOrAr32 none
  | 42 => decAtom w false false .atomXorAr32 none
  | 43 => decAtom w false false .atomXchgAr32 none
  | 44 => decAtom w false true .atomCasAr32 none
  | 45 => decAtom w false false .atomFaddAr32 none
  | 46 => decAtom w true false .atomAddAr64 none
  | 47 => decAtom w true false .atomMinSAr64 none
  | 48 => decAtom w true false .atomMinZAr64 none
  | 49 => decAtom w true false .atomMaxSAr64 none
  | 50 => decAtom w true false .atomMaxZAr64 none
  | 51 => decAtom w true false .atomAndAr64 none
  | 52 => decAtom w true false .atomOrAr64 none
  | 53 => decAtom w true false .atomXorAr64 none
  | 54 => decAtom w true false .atomXchgAr64 none
  | 55 => decAtom w true true .atomCasAr64 none
  | 56 => decAtom w true false .atomFaddAr64 none
  | 57 => pick (kScope g :: z3) (.fence (.of g)) | 58 => pick (kScope g :: z3) (.fenceAcq (.of g)) | 59 => pick (kScope g :: z3) (.fenceRel (.of g))
  | 60 => pick (kVal (decide (4 ≤ g)) :: z3) (.bar (.of g)) | 61 => pick (kVal (decide (4 ≤ g)) :: z3) (.barArr (.of g))
  | 62 => pick (kVal (decide (4 ≤ g)) :: z3) (.barWt (.of g))
  | 63 => pick [kScope g, kScalar f2, kZero f3] (.semSet sem) | 64 => pick [kScope g, kScalar f2, kZero f3] (.semAdd sem)
  | 65 => pick [g0, kScalar f2, kZero f3] (.semWait (.of f2) (Fin.ofNat 64 f1))
  | 66 => pick kh (.hpush hat) | 67 => pick kh (.hpop hat) | 68 => pick kh (.hpeek hat)
  | 69 => pick ke (.enqCopy enq) | 70 => pick ke (.enqGather enq) | 71 => pick ke (.enqScatter enq) | 72 => pick ke (.enqFill enq)
  | 73 => pick ke (.enqColl enq)
  | 74 => pick [g0, kScalar f1, kScalar f2, kZero f3] (.wpop wq) | 75 => pick [g0, kScalar f1, kScalar f2, kZero f3] (.wpush wq)
  | 76 => pick [g0, kScalar f1, kZero f2, kZero f3] (.launch (.of f1)) | 77 => pick [g0, kScalar f1, kZero f2, kZero f3] (.rlnch (.of f1))
  | 78 => pick (g0 :: z3) .dmark
  | 79 => pick [kRun f1 44, kZero f2, kZero f3] (.pdep (.of f1) (Fin.ofNat 16 g))
  | 80 => pick kp (.pcopy pan) | 81 => pick kp (.ptake pan)
  | 82 => pick [g0, kScalar f1, kZero f3, kVal (decide (29 ≤ f2))] (.gsr r (.of f1))
  | 83 => pick [g0, kDest f1, kVal (decide (29 ≤ f2))] (.gsrv nw r (.of f1))
  | 84 => pick [g0, kScalar f1, kZero f3, kVal (decide (29 ≤ f2) || !r.writable)] (.ssr r (.of f1))
  | 85 => pick [g0, kScalar f1, kZero f2, kZero f3] (.clk (.of f1)) | 86 => pick [g0, kScalar f1, kZero f2, kZero f3] (.lclk (.of f1))
  | 87 => pick [kZero (g / 2), kScalar f1] (.spool (BitVec.ofNat 8 (f2 + 64 * f3 + 128 * (g % 2))) (.of f1))
  | 88 => pick [g0, kScalar f1, kZero f3] (.bound (Fin.ofNat 64 f2) (.of f1))
  | 89 => pick [kGuard w, kZero f1, kZero f3, kPair true f2] (.poison (.of f2) gd)
  | _ => .bad 0x0102

/-- `setp` (R154): an integer ltz or gez takes b = 0. -/
def decSetp (w : Nat) : Dec :=
  let ty := fld w 30 2
  let p := ty == 1 || ty == 3
  pick [kGuard w, kPred (fld w 11 4), kVal (decide (ty < 2) && decide (6 ≤ fld w 15 3) && fld w 24 6 != 0),
      kPair p (fld w 18 6), kPair p (fld w 24 6)]
    (.setp ⟨.of ty, .of (fld w 24 6), .of (fld w 18 6), Fin.ofNat 8 (fld w 15 3), .of (fld w 11 4), .of (fld w 7 4)⟩)

/-- `sel` (R156): g = 1 + the selecting predicate. -/
def decSel (w : Nat) : Dec :=
  let p := fld w 30 2 == 3
  pick [kSub (fld w 30 2 == 1 || fld w 30 2 == 2), kVal (fld w 7 4 == 0 || decide (12 < fld w 7 4)), kDest (fld w 11 6),
      kPair p (fld w 11 6), kPair p (fld w 18 6), kPair p (fld w 24 6)]
    (.sel ⟨p, .of (fld w 24 6), .of (fld w 18 6), bit w 17, .of (fld w 11 6), .of (fld w 7 4 - 1)⟩)

/-- `cvt` (R159). -/
def decCvt (w : Nat) : Dec :=
  let c := fld w 24 6
  pick [kGuard w, kVal (decide (39 ≤ c)), kDest (fld w 11 6), kPair (cvtSrcPair c) (fld w 18 6), kPair (cvtDstPair c) (fld w 11 6)]
    (.cvt ⟨.of (fld w 30 2), Fin.ofNat 39 c, .of (fld w 18 6), bit w 17, .of (fld w 11 6), .of (fld w 7 4)⟩)

/-- `call` and `calli` (R129). -/
def kFrame (w : Nat) : Bool × Nat :=
  let nv := fld w 11 6
  kVal (nv == 0 || decide (60 < nv) || decide (8 < fld w 17 4) || decide (nv < fld w 21 3))

/-- A 32-bit instruction (R118, R119). -/
noncomputable def decode32 (w : Nat) : Dec :=
  match fld w 1 6 with
  | 1 => decInt w .add | 2 => decInt w .sub | 3 => decInt w .mul | 4 => decInt w .mulhS | 5 => decInt w .mulhZ | 6 => decInt w .mad
  | 7 => decInt w .minS | 8 => decInt w .minZ | 9 => decInt w .maxS | 10 => decInt w .maxZ | 11 => decInt w .and | 12 => decInt w .or
  | 13 => decInt w .xor | 14 => decInt w .andn | 15 => decInt w .shl | 16 => decInt w .shr | 17 => decInt w .sar | 18 => decInt w .rotl
  | 19 => decInt w .adds | 20 => decInt w .subs
  | 21 => decImm w .addi | 22 => decImm w .andi | 23 => decImm w .ori | 24 => decImm w .xori
  | 25 => decShi w .shli | 26 => decShi w .shri | 27 => decShi w .sari
  | 28 => pick (kVal (fld w 18 6 != 0) :: kGD w) (.movi ⟨BitVec.ofNat 8 (fld w 24 8), bit w 17, .of (fld w 11 6), .of (fld w 7 4)⟩)
  | 29 => decFlo w .fadd | 30 => decFlo w .fsub | 31 => decFlo w .fmul | 32 => decFlo w .fma | 33 => decFlo w .fmin | 34 => decFlo w .fmax
  | 35 => pick (kSub (fld w 30 2 == 0 || fld w 30 2 == 3) :: kGD w)
      (.fdot2 ⟨fld w 30 2 == 2, .of (fld w 24 6), .of (fld w 18 6), bit w 17, .of (fld w 11 6), .of (fld w 7 4)⟩)
  | 36 => decSetp w
  | 37 => pick [kGuard w, kSub (fld w 30 2 != 0), kPred (fld w 11 4), kVal (decide (fld w 30 2 < 2) && decide (6 ≤ fld w 15 3) && fld w 24 6 != 0)]
      (.setpi ⟨BitVec.ofNat 6 (fld w 24 6), .of (fld w 18 6), Fin.ofNat 8 (fld w 15 3), .of (fld w 11 4), .of (fld w 7 4)⟩)
  | 38 => decPL w
  | 39 => decSel w
  | 40 => decUnary w
  | 41 => decCvt w
  | 42 => match fld w 30 2 with
    | 0 => pick (kRun (fld w 18 6) 56 :: kGD w) (.cvtnPk (.of w))
    | 1 => pick (kRun (fld w 11 6) 56 :: kGD w) (.cvtnUnpk (.of w))
    | 2 => pick (kRun (fld w 18 6) 56 :: kGD w) (.cvtnBscale (.of w))
    | _ => .bad 0x0102
  | 43 => match fld w 30 2 with
    | 0 => pick (kGD w) (.bfxS (.of w)) | 1 => pick (kGD w) (.bfxZ (.of w)) | 2 => pick (kGD w) (.bfi (.of w))
    | _ => .bad 0x0102
  | 44 => match fld w 30 2 with
    | 0 => pick (kGD w) (.shflIdx (.of w)) | 1 => pick (kGD w) (.shflUp (.of w)) | 2 => pick (kGD w) (.shflDn (.of w))
    | _ => pick (kGD w) (.shflXor (.of w))
  | 45 => decLV w
  | 46 => pick (kVal (fld w 27 5 != 0) :: kGD w)
      (.redx ⟨.of (fld w 24 3), .of (fld w 18 6), bit w 17, .of (fld w 11 6), .of (fld w 7 4)⟩)
  | 47 => pick (kVal (fld w 28 4 != 0) :: kGD w)
      (.scan ⟨bit w 27, .of (fld w 24 3), .of (fld w 18 6), bit w 17, .of (fld w 11 6), .of (fld w 7 4)⟩)
  | 48 => decMV w
  | 49 => decSop w
  | 50 => pick [kG0 w] (.saddi (BitVec.ofNat 11 (fld w 21 11)) (.of (fld w 16 5)) (.of (fld w 11 5)))
  | 51 => pick [kG0 w] (.sli ⟨BitVec.ofNat 16 (fld w 16 16), .of (fld w 11 5)⟩)
  | 52 => pick [kG0 w] (.slh ⟨BitVec.ofNat 16 (fld w 16 16), .of (fld w 11 5)⟩)
  | 53 => pick [kG0 w] (.slx ⟨BitVec.ofNat 16 (fld w 16 16), .of (fld w 11 5)⟩)
  | 54 => pick [kGuard w] (.bra (BitVec.ofNat 21 (fld w 11 21)) (.of (fld w 7 4)))
  | 55 => pick [kG0 w, kSub (decide (6 ≤ fld w 16 3))] (.brs (BitVec.ofNat 13 (fld w 19 13)) (.of (fld w 16 3)) (.of (fld w 11 5)))
  | 56 => pick [kG0 w, kFrame w]
      (.call ⟨BitVec.ofNat 8 (fld w 24 8), Fin.ofNat 8 (fld w 21 3), Fin.ofNat 9 (fld w 17 4), Fin.ofNat 61 (fld w 11 6)⟩)
  | 57 => pick [kG0 w, kFrame w, kZero (fld w 29 3)]
      (.calli ⟨.of (fld w 24 5), Fin.ofNat 8 (fld w 21 3), Fin.ofNat 9 (fld w 17 4), Fin.ofNat 61 (fld w 11 6)⟩)
  | 58 => decCT w
  | 59 => pick [kG0 w] (.loop (BitVec.ofNat 16 (fld w 16 16)) (.of (fld w 11 5)))
  | 60 => decM w
  | 61 => if bit w 31 then pick [kGuard w] (.stl32 ⟨BitVec.ofNat 9 (fld w 22 9), .of (fld w 17 5), .of (fld w 11 6), .of (fld w 7 4)⟩)
      else pick (kGD w) (.ldl32 ⟨BitVec.ofNat 9 (fld w 22 9), .of (fld w 17 5), .of (fld w 11 6), .of (fld w 7 4)⟩)
  | 62 => decX w
  | 63 => decMX w
  | _ => .bad 0x0101

/-- The source field of C16 (R117). -/
def cSrc (e : Nat) : VSrc := if e < 28 then .row (Fin.ofNat 60 e) else .slot (Fin.ofNat 4 (e - 28))

/-- A 16-bit instruction (R117). -/
def decode16 (w : Nat) : Dec :=
  let d := fld w 5 6
  let f : C16 := ⟨cSrc (fld w 11 5), .of d⟩
  let fi : C16i := ⟨BitVec.ofNat 5 (fld w 11 5), .of d⟩
  let p (i : Instr) : Dec := pick [(w % 65536 == 0, 0x0101), kDest d] i
  match fld w 1 4 with
  | 0 => p (.movCompact f) | 1 => p (.addCompact f) | 2 => p (.subCompact f) | 3 => p (.andCompact f) | 4 => p (.orCompact f)
  | 5 => p (.xorCompact f) | 6 => p (.shlCompact f) | 7 => p (.shrCompact f) | 8 => p (.faddCompact f) | 9 => p (.fsubCompact f)
  | 10 => p (.fmulCompact f) | 11 => p (.minCompact f) | 12 => p (.maxCompact f) | 13 => p (.mulCompact f)
  | 14 => p (.addq fi) | _ => p (.movq fi)

/-- The decoder: `w` holds the first parcel in bits [15:0] and the second in bits [31:16] (R109). -/
noncomputable def decode (w : Nat) : Dec := if w % 2 = 0 then decode16 (w % 65536) else decode32 (w % 2 ^ 32)

/-- A byte of a list, 0 beyond its end. -/
def byteAt (bs : List Byte) (i : Nat) : Nat := (bs.getD i 0).toNat

/-- The word that bytes hold, little-endian (R3, R109): the lower parcel first. -/
def wordOfBytes (bs : List Byte) : Nat := byteAt bs 0 + 256 * byteAt bs 1 + 65536 * byteAt bs 2 + 16777216 * byteAt bs 3

/-- The bytes of a word, as memory holds them. -/
def bytesOfWord (w : Nat) : List Byte :=
  [BitVec.ofNat 8 w, BitVec.ofNat 8 (w / 256), BitVec.ofNat 8 (w / 65536), BitVec.ofNat 8 (w / 16777216)]

/-- The decoder on the bytes at a program counter. -/
noncomputable def decodeBytes (bs : List Byte) : Dec := decode (wordOfBytes bs)

/-- The instruction that the decoder reads from an instruction of the opcode table whose bits are `w`. -/
noncomputable def decodeTableWord (nbits w : Nat) : Option Instr :=
  match decodeBytes (bytesOfWord (w % 2 ^ nbits)) with
  | .ok i => some i
  | .bad _ => none

/-- A Bool as a bit. -/
def bitOf (b : Bool) : Nat := if b then 1 else 0

/-- V3 with ty and b given as numbers. -/
def encV (major ty b a : Nat) (nw : Bool) (d : Nat) (g : Nat) : Nat :=
  1 + 2 * major + 128 * g + 2048 * d + 131072 * bitOf nw + 262144 * a + 16777216 * b + 1073741824 * ty
/-- Integer majors. -/
def encInt (major : Nat) (f : V3 IntTy) : Nat := encV major f.ty.code f.b.code f.a.code f.nw f.d.val f.g.code
/-- Float majors. -/
def encFlo (major : Nat) (f : V3 FloTy) : Nat := encV major f.ty.code f.b.code f.a.code f.nw f.d.val f.g.code
/-- Two-source forms. -/
def encV2 (major ty : Nat) (f : V2) : Nat := encV major ty f.b.code f.a.code f.nw f.d.val f.g.code
/-- Unary forms. -/
def encU1 (sub : Nat) (f : U1) : Nat := encV 40 0 sub f.a.code f.nw f.d.val f.g.code
/-- Unary forms with a 64-bit form. -/
def encU2 (sub : Nat) (f : U2) : Nat := encV 40 (3 * bitOf f.pair) sub f.a.code f.nw f.d.val f.g.code
/-- Format VI. -/
def encVI (major : Nat) (f : VI) : Nat :=
  1 + 2 * major + 128 * f.g.code + 2048 * f.d.val + 131072 * bitOf f.nw + 262144 * f.a.code + 16777216 * f.imm.toNat
/-- Format VI of the immediate shifts. -/
def encVIs (major : Nat) (f : VIs) : Nat :=
  1 + 2 * major + 128 * f.g.code + 2048 * f.d.val + 131072 * bitOf f.nw + 262144 * f.a.code + 16777216 * f.amt.val
/-- Format PL. -/
def encPL (op pb pa : Nat) (pd : PReg) (g : Guard) : Nat := 77 + 128 * g.code + 2048 * pd.val + 32768 * pa + 524288 * pb + 8388608 * op
/-- Format LV. -/
def encLV (sub : Nat) (pa : PReg) (dest : Nat) (g : Guard) : Nat := 91 + 128 * g.code + 2048 * dest + 65536 * pa.val + 1048576 * sub
/-- Format MV. -/
def encMV (sub lane s v : Nat) (g : Guard) : Nat := 97 + 128 * g.code + 2048 * v + 131072 * s + 4194304 * sub + 16777216 * lane
/-- Format SS. -/
def encSS (fn : Nat) (f : SS) : Nat := 99 + 2048 * f.sd.val + 65536 * f.sa.val + 2097152 * f.sb.val + 67108864 * fn
/-- Format SI. -/
def encSI (major : Nat) (f : SI) : Nat := 1 + 2 * major + 2048 * f.sd.val + 65536 * f.imm.toNat
/-- Format CT. -/
def encCT (sub rest : Nat) : Nat := 117 + 128 * sub + 2048 * rest
/-- Format M. -/
def encM (op4 va s v : Nat) (g : Guard) : Nat := 121 + 128 * g.code + 2048 * v + 131072 * s + 4194304 * va + 268435456 * op4
/-- Format X. -/
def encX (sub8 f3 f2 f1 g : Nat) : Nat := 125 + 128 * g + 2048 * f1 + 131072 * f2 + 8388608 * f3 + 16777216 * sub8
/-- Format MX. -/
def encMX (sub4 fw dq b a : Nat) : Nat := 127 + 128 * sub4 + 2048 * a + 131072 * b + 8388608 * dq + 67108864 * fw
/-- The source field of C16. -/
def VSrc.ccode : VSrc → Nat
  | .row r => r.val
  | .slot b => 28 + b.val
/-- Format C16. -/
def encC (cop : Nat) (f : C16) : Nat := 2 * cop + 32 * f.d.val + 2048 * f.e.ccode
/-- Format C16 with an immediate. -/
def encCi (cop : Nat) (f : C16i) : Nat := 2 * cop + 32 * f.d.val + 2048 * f.imm.toNat
/-- `atom` of sub-op n. -/
def encAtom (sub8 : Nat) (f : XAtom) : Nat := encX sub8 0 f.a.code f.d.val f.c.code
/-- `red` of sub-op n. -/
def encRed (sub8 : Nat) (f : XRel) : Nat := encX sub8 1 f.a.code f.d.code f.c.code

/-- The word of a well-formed instruction, its first parcel in bits [15:0]; 0 for the steps that have no encoding. -/
def encode : Instr → Nat
  | .add f => encInt 1 f
  | .sub f => encInt 2 f
  | .mul f => encInt 3 f
  | .mulhS f => encInt 4 f
  | .mulhZ f => encInt 5 f
  | .mad f => encInt 6 f
  | .minS f => encInt 7 f
  | .minZ f => encInt 8 f
  | .maxS f => encInt 9 f
  | .maxZ f => encInt 10 f
  | .and f => encInt 11 f
  | .or f => encInt 12 f
  | .xor f => encInt 13 f
  | .andn f => encInt 14 f
  | .shl f => encInt 15 f
  | .shr f => encInt 16 f
  | .sar f => encInt 17 f
  | .rotl f => encInt 18 f
  | .adds f => encInt 19 f
  | .subs f => encInt 20 f
  | .addi f => encVI 21 f
  | .andi f => encVI 22 f
  | .ori f => encVI 23 f
  | .xori f => encVI 24 f
  | .shli f => encVIs 25 f
  | .shri f => encVIs 26 f
  | .sari f => encVIs 27 f
  | .movi f => 57 + 128 * f.g.code + 2048 * f.d.val + 131072 * bitOf f.nw + 16777216 * f.imm.toNat
  | .fadd f => encFlo 29 f
  | .fsub f => encFlo 30 f
  | .fmul f => encFlo 31 f
  | .fma f => encFlo 32 f
  | .fmin f => encFlo 33 f
  | .fmax f => encFlo 34 f
  | .fdot2 f => encV 35 (if f.ty then 2 else 1) f.b.code f.a.code f.nw f.d.val f.g.code
  | .setp f => 73 + 128 * f.g.code + 2048 * f.pd.val + 32768 * f.cc.val + 262144 * f.a.code + 16777216 * f.b.code + 1073741824 * f.ty.code
  | .setpi f => 75 + 128 * f.g.code + 2048 * f.pd.val + 32768 * f.cc.val + 262144 * f.a.code + 16777216 * f.imm.toNat
  | .pand f => encPL 0 f.pb.val f.pa.val f.pd f.g
  | .por f => encPL 1 f.pb.val f.pa.val f.pd f.g
  | .pxor f => encPL 2 f.pb.val f.pa.val f.pd f.g
  | .pandn f => encPL 3 f.pb.val f.pa.val f.pd f.g
  | .pnot f => encPL 4 0 f.pa.val f.pd f.g
  | .pmov f => encPL 5 0 f.pa.val f.pd f.g
  | .pset f => encPL 6 0 0 f.pd f.g
  | .pclr f => encPL 7 0 0 f.pd f.g
  | .sel f => encV 39 (3 * bitOf f.pair) f.b.code f.a.code f.nw f.d.val (f.p.val + 1)
  | .mov f => encU2 0 f
  | .abs f => encU2 1 f
  | .neg f => encU2 2 f
  | .not f => encU2 3 f
  | .clz f => encU1 4 f
  | .popc f => encU1 5 f
  | .brev f => encU1 6 f
  | .fabs f => encU1 8 f
  | .fneg f => encU1 9 f
  | .frcp f => encU1 10 f
  | .frsq f => encU1 11 f
  | .fsqrt f => encU1 12 f
  | .fexp2 f => encU1 13 f
  | .flog2 f => encU1 14 f
  | .frndN f => encU1 15 f
  | .frndZ f => encU1 16 f
  | .frndM f => encU1 17 f
  | .frndP f => encU1 18 f
  | .fclass f => encU1 19 f
  | .cvt f => encV 41 f.mode.code f.code.val f.a.code f.nw f.d.val f.g.code
  | .cvtnPk f => encV2 42 0 f
  | .cvtnUnpk f => encV2 42 1 f
  | .cvtnBscale f => encV2 42 2 f
  | .bfxS f => encV2 43 0 f
  | .bfxZ f => encV2 43 1 f
  | .bfi f => encV2 43 2 f
  | .shflIdx f => encV2 44 0 f
  | .shflUp f => encV2 44 1 f
  | .shflDn f => encV2 44 2 f
  | .shflXor f => encV2 44 3 f
  | .voteAny f => encLV 0 f.pa f.pd.val f.g
  | .voteAll f => encLV 1 f.pa f.pd.val f.g
  | .voteEq f => encLV 2 f.pa f.pd.val f.g
  | .ballot f => encLV 3 f.pa f.sd.val f.g
  | .ballotCnt f => encLV 4 f.pa f.sd.val f.g
  | .redx f => encV 46 0 f.op.code f.a.code f.nw f.d.val f.g.code
  | .scan f => encV 47 0 (f.op.code + 8 * bitOf f.ex) f.a.code f.nw f.d.val f.g.code
  | .vmovs f => encMV 0 0 f.s.val f.v.val f.g
  | .smovv f => encMV 1 f.lane.val f.s.val f.v.code f.g
  | .vins f => encMV 2 f.lane.val f.s.val f.v.val f.g
  | .sadd f => encSS 0 f
  | .ssub f => encSS 1 f
  | .smul f => encSS 2 f
  | .smulh f => encSS 3 f
  | .sdiv f => encSS 4 f
  | .sdivz f => encSS 5 f
  | .srem f => encSS 6 f
  | .sand f => encSS 7 f
  | .sor f => encSS 8 f
  | .sxor f => encSS 9 f
  | .sshl f => encSS 10 f
  | .sshr f => encSS 11 f
  | .ssar f => encSS 12 f
  | .smin f => encSS 13 f
  | .smax f => encSS 14 f
  | .sminz f => encSS 15 f
  | .smaxz f => encSS 16 f
  | .smov sa sd => encSS 17 ⟨0, sa, sd⟩
  | .sslt f => encSS 18 f
  | .ssltz f => encSS 19 f
  | .sseq f => encSS 20 f
  | .saddi imm sa sd => 101 + 2048 * sd.val + 65536 * sa.val + 2097152 * imm.toNat
  | .sli f => encSI 51 f
  | .slh f => encSI 52 f
  | .slx f => encSI 53 f
  | .movCompact f => encC 0 f
  | .addCompact f => encC 1 f
  | .subCompact f => encC 2 f
  | .andCompact f => encC 3 f
  | .orCompact f => encC 4 f
  | .xorCompact f => encC 5 f
  | .shlCompact f => encC 6 f
  | .shrCompact f => encC 7 f
  | .faddCompact f => encC 8 f
  | .fsubCompact f => encC 9 f
  | .fmulCompact f => encC 10 f
  | .minCompact f => encC 11 f
  | .maxCompact f => encC 12 f
  | .mulCompact f => encC 13 f
  | .addq f => encCi 14 f
  | .movq f => encCi 15 f
  | .bra off g => 109 + 128 * g.code + 2048 * off.toNat
  | .brs off cc sa => 111 + 2048 * sa.val + 65536 * cc.code + 524288 * off.toNat
  | .call f => 113 + 2048 * f.nv.val + 131072 * f.nm16.val + 2097152 * f.k.val + 16777216 * f.e.toNat
  | .calli f => 115 + 2048 * f.nv.val + 131072 * f.nm16.val + 2097152 * f.k.val + 16777216 * f.s.val
  | .ret k => encCT 0 k.val
  | .unwind sa => encCT 1 sa.val
  | .jmp sa => encCT 2 sa.val
  | .reform => encCT 3 0
  | .exit => encCT 4 0
  | .yield => encCT 5 0
  | .nop => encCT 6 0
  | .trap code => encCT 7 code.toNat
  | .brk code => encCT 8 code.toNat
  | .rti => encCT 9 0
  | .suspect code => encCT 10 code.toNat
  | .probe tag sa => encCT 11 (sa.val + 32 * tag.toNat)
  | .loop off s => 119 + 2048 * s.val + 65536 * off.toNat
  | .ldS8 f => encM 0 f.va.code f.s.val f.v.val f.g
  | .ldZ8 f => encM 1 f.va.code f.s.val f.v.val f.g
  | .ldS16 f => encM 2 f.va.code f.s.val f.v.val f.g
  | .ldZ16 f => encM 3 f.va.code f.s.val f.v.val f.g
  | .ld32 f => encM 4 f.va.code f.s.val f.v.val f.g
  | .ld64 f => encM 5 f.va.code f.s.val f.v.val f.g
  | .ld128 f => encM 6 f.va.code f.s.val f.v.val f.g
  | .st8 f => encM 7 f.va.code f.s.val f.v.code f.g
  | .st16 f => encM 8 f.va.code f.s.val f.v.code f.g
  | .st32 f => encM 9 f.va.code f.s.val f.v.code f.g
  | .st64 f => encM 10 f.va.code f.s.val f.v.code f.g
  | .st128 f => encM 11 f.va.code f.s.val f.v.code f.g
  | .pf f => encM 12 f.va.code f.s.val 0 f.g
  | .ldl32 f => 123 + 128 * f.g.code + 2048 * f.v.val + 131072 * f.s.val + 4194304 * f.imm.toNat
  | .stl32 f => 123 + 128 * f.g.code + 2048 * f.v.code + 131072 * f.s.val + 4194304 * f.imm.toNat + 2147483648
  | .lds32 f => encX 0 (bitOf f.nw) f.o.code f.d.val f.g.code
  | .lds64 f => encX 1 (bitOf f.nw) f.o.code f.d.val f.g.code
  | .lds128 f => encX 2 (bitOf f.nw) f.o.code f.d.val f.g.code
  | .sts32 f => encX 3 0 f.o.code f.d.code f.g.code
  | .sts64 f => encX 4 0 f.o.code f.d.code f.g.code
  | .sts128 f => encX 5 0 f.o.code f.d.code f.g.code
  | .ldw32 f => encX 6 (bitOf f.nw) f.o.code f.d.val f.w.val
  | .ldw64 f => encX 7 (bitOf f.nw) f.o.code f.d.val f.w.val
  | .sldw f => encX 8 0 f.o.val f.d.val f.w.val
  | .ldAcq32 f => encX 9 (bitOf f.nw) f.a.code f.d.val f.c.code
  | .ldAcq64 f => encX 10 (bitOf f.nw) f.a.code f.d.val f.c.code
  | .stRel32 f => encX 11 0 f.a.code f.d.code f.c.code
  | .stRel64 f => encX 12 0 f.a.code f.d.code f.c.code
  | .atomAdd32 f => encAtom 13 f
  | .atomMinS32 f => encAtom 14 f
  | .atomMinZ32 f => encAtom 15 f
  | .atomMaxS32 f => encAtom 16 f
  | .atomMaxZ32 f => encAtom 17 f
  | .atomAnd32 f => encAtom 18 f
  | .atomOr32 f => encAtom 19 f
  | .atomXor32 f => encAtom 20 f
  | .atomXchg32 f => encAtom 21 f
  | .atomCas32 f => encAtom 22 f
  | .atomFadd32 f => encAtom 23 f
  | .atomAdd64 f => encAtom 24 f
  | .atomMinS64 f => encAtom 25 f
  | .atomMinZ64 f => encAtom 26 f
  | .atomMaxS64 f => encAtom 27 f
  | .atomMaxZ64 f => encAtom 28 f
  | .atomAnd64 f => encAtom 29 f
  | .atomOr64 f => encAtom 30 f
  | .atomXor64 f => encAtom 31 f
  | .atomXchg64 f => encAtom 32 f
  | .atomCas64 f => encAtom 33 f
  | .atomFadd64 f => encAtom 34 f
  | .atomAddAr32 f => encAtom 35 f
  | .atomMinSAr32 f => encAtom 36 f
  | .atomMinZAr32 f => encAtom 37 f
  | .atomMaxSAr32 f => encAtom 38 f
  | .atomMaxZAr32 f => encAtom 39 f
  | .atomAndAr32 f => encAtom 40 f
  | .atomOrAr32 f => encAtom 41 f
  | .atomXorAr32 f => encAtom 42 f
  | .atomXchgAr32 f => encAtom 43 f
  | .atomCasAr32 f => encAtom 44 f
  | .atomFaddAr32 f => encAtom 45 f
  | .atomAddAr64 f => encAtom 46 f
  | .atomMinSAr64 f => encAtom 47 f
  | .atomMinZAr64 f => encAtom 48 f
  | .atomMaxSAr64 f => encAtom 49 f
  | .atomMaxZAr64 f => encAtom 50 f
  | .atomAndAr64 f => encAtom 51 f
  | .atomOrAr64 f => encAtom 52 f
  | .atomXorAr64 f => encAtom 53 f
  | .atomXchgAr64 f => encAtom 54 f
  | .atomCasAr64 f => encAtom 55 f
  | .atomFaddAr64 f => encAtom 56 f
  | .redAdd32 f => encRed 13 f
  | .redMinS32 f => encRed 14 f
  | .redMinZ32 f => encRed 15 f
  | .redMaxS32 f => encRed 16 f
  | .redMaxZ32 f => encRed 17 f
  | .redAnd32 f => encRed 18 f
  | .redOr32 f => encRed 19 f
  | .redXor32 f => encRed 20 f
  | .redXchg32 f => encRed 21 f
  | .redFadd32 f => encRed 23 f
  | .redAdd64 f => encRed 24 f
  | .redMinS64 f => encRed 25 f
  | .redMinZ64 f => encRed 26 f
  | .redMaxS64 f => encRed 27 f
  | .redMaxZ64 f => encRed 28 f
  | .redAnd64 f => encRed 29 f
  | .redOr64 f => encRed 30 f
  | .redXor64 f => encRed 31 f
  | .redXchg64 f => encRed 32 f
  | .redFadd64 f => encRed 34 f
  | .fence c => encX 57 0 0 0 c.code
  | .fenceAcq c => encX 58 0 0 0 c.code
  | .fenceRel c => encX 59 0 0 0 c.code
  | .bar l => encX 60 0 0 0 l.code
  | .barArr l => encX 61 0 0 0 l.code
  | .barWt l => encX 62 0 0 0 l.code
  | .semSet f => encX 63 0 f.s.val f.k.val f.c.code
  | .semAdd f => encX 64 0 f.s.val f.k.val f.c.code
  | .semWait s k => encX 65 0 s.val k.val 0
  | .hpush f => encX 66 0 0 f.s.val f.h.val
  | .hpop f => encX 67 0 0 f.s.val f.h.val
  | .hpeek f => encX 68 0 0 f.s.val f.h.val
  | .enqCopy f => encX 69 0 0 f.o.code f.g.code
  | .enqGather f => encX 70 0 0 f.o.code f.g.code
  | .enqScatter f => encX 71 0 0 f.o.code f.g.code
  | .enqFill f => encX 72 0 0 f.o.code f.g.code
  | .enqColl f => encX 73 0 0 f.o.code f.g.code
  | .wpop f => encX 74 0 f.o.val f.q.val 0
  | .wpush f => encX 75 0 f.o.val f.q.val 0
  | .launch s => encX 76 0 0 s.val 0
  | .rlnch s => encX 77 0 0 s.val 0
  | .dmark => encX 78 0 0 0 0
  | .pdep item n => encX 79 0 0 item.code n.val
  | .pcopy f => encX 80 (bitOf f.try_) f.p.code f.d.val f.n.val
  | .ptake f => encX 81 (bitOf f.try_) f.p.code f.d.val f.n.val
  | .gsr r sd => encX 82 0 r.code sd.val 0
  | .gsrv nw r d => encX 83 (bitOf nw) r.code d.val 0
  | .ssr r s => encX 84 0 r.code s.val 0
  | .clk sd => encX 85 0 0 sd.val 0
  | .lclk sd => encX 86 0 0 sd.val 0
  | .spool i sd => encX 87 (i.toNat / 64 % 2) (i.toNat % 64) sd.val (i.toNat / 128)
  | .bound b s => encX 88 0 b.val s.val 0
  | .poison a g => encX 89 0 a.code 0 g.code
  | .mx f => encMX 0 f.fw.code f.dq.val f.b.val f.a.val
  | .mxSp f => encMX 1 f.fw.code f.dq.val f.b.val f.a.val
  | .mzero dq => encMX 2 0 dq.val 0 0
  | .mld f => encMX 3 0 f.dq.val 0 f.a.code
  | .mst f => encMX 4 0 f.dq.val 0 f.a.code
  | .mmovVm dq e d => encMX 5 0 dq.val e.val d.val
  | .mmovMv dq e a => encMX 6 0 dq.val e.val a.code
  | .mxq q a => encMX 7 0 0 q.val a.code
  | .loadLand _ _ => 0
  | .storeDrain _ => 0
  | .atomicPerform _ => 0
  | .releaseComplete _ => 0
  | .translationWalkComplete _ _ _ => 0
  | .cellarSpillAck _ => 0
  | .refillComplete _ => 0
  | .reformBinTimeout _ _ => 0
  | .reformBinLeave _ => 0
  | .yieldTimeout _ => 0
  | .trapRecordWrite _ => 0
  | .faultPark _ => 0
  | .launchAnswer _ => 0
  | .jobStart _ _ => 0
  | .jobChunkDone _ _ => 0
  | .jobComplete _ _ => 0
  | .collectiveStep _ _ _ => 0
  | .mxStart _ => 0
  | .mxComplete _ => 0
  | .pantryCopyArrive _ => 0
  | .pantryTakeArrive _ => 0
  | .pantryDepositArrive _ => 0
  | .pantryWithdrawalArrive _ => 0
  | .pantryHeldResend _ => 0
  | .pantryAnswerLand _ => 0
  | .wpopDeliver _ _ => 0
  | .wpushAppend _ _ => 0
  | .messageReceive _ _ => 0
  | .teamPlace _ => 0
  | .teamMove _ _ => 0
  | .sliceEnd _ => 0
  | .enginePreemptAck _ _ => 0
  | .preemptTimeout _ => 0
  | .hangWindowEnd => 0
  | .studyMigrationArrive _ _ => 0
  | .studyReturnComplete _ _ _ _ => 0
  | .launchCmd _ _ => 0
  | .relaunch _ _ => 0
  | .append _ _ => 0
  | .copy _ _ => 0
  | .signal _ _ => 0
  | .wait _ _ => 0
  | .waitRetest _ _ => 0
  | .mark _ _ => 0
  | .studyArm _ _ => 0
  | .studyMark _ _ => 0
  | .studyReturn _ _ => 0
  | .studyResume _ _ => 0
  | .inval _ _ => 0
  | .answer _ _ => 0
  | .vfconfTrapVector _ _ => 0
  | .vfconfServiceRing _ _ => 0
  | .vfconfErrorRing _ _ => 0
  | .vfconfPriorityCap _ _ => 0
  | .vfconfSliceLength _ _ => 0
  | .vfconfAddressSpace _ _ => 0
  | .vfconfPartition _ _ => 0
  | .vfconfPantryAllocate _ _ => 0
  | .vfconfPantryFree _ _ => 0
  | .wqconfCreate _ _ => 0
  | .wqconfDestroy _ _ => 0
  | .doorbell _ _ _ => 0
  | .qcbaddr _ _ _ => 0
  | .svccons _ _ => 0
  | .errcons _ _ => 0
  | .exansAcknowledge _ _ _ => 0
  | .exansResume _ _ _ => 0
  | .exansSkip _ _ _ => 0
  | .exansAbort _ _ _ => 0
  | .pfErrorRingSet _ _ => 0
  | .pferrcons _ => 0
  | .cut _ => 0
  | .cutResume _ => 0
  | .partWrite _ _ => 0
  | .registerWrite _ _ _ => 0
  | .hostApertureWrite _ _ _ => 0
  | .hostApertureRead _ _ _ => 0
  | .linkFlitReceive _ _ _ _ => 0
  | .linkNakReceive _ => 0
  | .linkAckReceive _ => 0
  | .linkAckTimeout => 0
  | .linkRetrainComplete _ => 0
  | .keyRollover => 0
  | .shutonMarkerReceive _ _ => 0
  | .powerGood => 0
  | .imageVerified _ _ => 0
  | .safeFunction _ _ => 0
  | .fullFunction _ _ => 0
  | .recoveryImageWrite _ => 0
  | .moduleReset => 0
  | .orderlyPowerDown => 0
  | .thermalSample _ => 0
  | .wearHourlyWrite => 0
  | .patrolScrub _ _ => 0
  | .firmwareWatchdogExpiry _ _ => 0
  | .illegalInstruction _ _ => 0
  | .fetchFault => 0
  | .copyComplete _ _ => 0
  | .planeClear _ => 0
  | .wipeAcknowledged _ => 0
  | .firmwareReloadComplete _ => 0
  | .powerLoss => 0

/-- How many bytes an instruction takes in memory (R109). -/
def Instr.len : Instr → Nat
  | .movCompact _ | .addCompact _ | .subCompact _ | .andCompact _ | .orCompact _ | .xorCompact _ | .shlCompact _ | .shrCompact _
  | .faddCompact _ | .fsubCompact _ | .fmulCompact _ | .minCompact _ | .maxCompact _ | .mulCompact _ | .addq _ | .movq _ => 2
  | _ => 4

/-- The rows of the table that have an encoding. -/
def Instr.encoded (i : Instr) : Bool := encode i != 0 || i.len == 2

end Sys2Proof
end

