-- ==== Sys2Proof/Machine/State.lean ====
section
/-! DEFINITION. The state of the IZ-4 as plain data, and the state right after a module reset. -/

namespace Sys2Proof.Machine

/-- Byte memory: addresses strictly rising, no entry equal to 0, which an unlisted address reads as (LOG 2). -/
abbrev Mem := List Host.Cell

/-- A register row (R178): 64 lane words, and the lanes whose word is poisoned (R434). -/
structure Row where
  w : Vals := Vector.replicate 64 0
  px : Mask := 0
  deriving DecidableEq, Repr

/-- A scalar register with its poison mark (R434). -/
structure Sc where
  v : W64 := 0
  px : Bool := false
  deriving DecidableEq, Repr

/-- A frame (R178, R181). Rows that were never written are fresh and read 0 (R179). -/
structure Frame where
  nv : Nat := 1
  nm : Nat := 0
  v : FMap Row := []
  m : FMap Row := []
  sc : FMap Sc := []
  lanes : Mask := 0
  ret : W64 := 0
  k : Nat := 0
  handler : Bool := false
  /-- Its rows are in the cellar (R185). -/
  spilled : Bool := false
  /-- Rows of a spilled frame that stay resident: the argument rows that a callee has left (R186). -/
  kept : Nat := 0
  /-- A study core holds its rows (R341, R342). -/
  away : Bool := false
  /-- The model's own: the group's place in its program order when the frame was pushed, by which a store's source tells it from an earlier frame
  (R186). -/
  born : Nat := 0
  deriving DecidableEq, Repr

/-- What an access reaches (R60, R80). -/
inductive Tgt where
  /-- Device memory; whether the page is memory-side. -/
  | dev (pa : Nat) (ms : Bool)
  /-- Host memory; whether the page is visitor-cached. -/
  | host (a : Nat) (cached : Bool)
  /-- The scratchpad of a team. -/
  | scr (team off : Nat)
  /-- The parlour of a grid on a die. -/
  | par (grid die off : Nat)
  /-- A window byte at or beyond the window's size, which reads as 0 (R217). -/
  | zero
  deriving DecidableEq, Repr

/-- One lane's access: lane, virtual address, target, width in bytes. -/
structure Acc where
  lane : Nat
  va : Nat
  tgt : Tgt
  n : Nat
  deriving DecidableEq, Repr

/-- What a load does with its bytes: sign-extend or not, into rows, m rows or a scalar. -/
inductive LdDst where
  | rows (signed : Bool) (d : Nat) (count : Nat)
  | mrows (d : Nat)
  | scalar (d : Nat)
  | none
  deriving DecidableEq, Repr

/-- An outstanding load (R211, R218). -/
structure Ld where
  seq : Nat
  depth : Nat
  dst : LdDst
  accs : List Acc
  acq : Option Scope
  /-- The address of the load and its issue mask, for the records of a studied group (R349). -/
  pc : W64
  mask : Mask
  deriving DecidableEq, Repr

/-- The operations of R221. -/
inductive AtomOp where | add | minS | minZ | maxS | maxZ | and | or | xor | xchg | cas | fadd
  deriving DecidableEq, Repr

/-- One message to a pantry slice (R272). -/
structure PMsg where
  take : Bool
  dep : Bool
  try_ : Bool
  region : Nat
  lane : Nat
  words : List W64
  /-- The identity of the lane that sends it, which a reform leaves as it is (R46, R271). -/
  tid : Nat := 0
  deriving DecidableEq, Repr

/-- What a release carries: it is performed when the release completes (R219). -/
inductive RelAct where
  | none
  | sem (set : Bool) (k : Nat) (v : W64)
  | hpush (h : Nat) (v : W32) (mask : Mask)
  | wpush (w off : Nat) (mask : Mask)
  | pdep (op : Nat) (msgs : List PMsg)
  | arrive (l : Level)
  deriving DecidableEq, Repr

/-- An entry of a store FIFO (R66, R209, R223). -/
inductive FOp where
  | store (items : List (Acc × List Byte))
  | poison (items : List Acc)
  | atom (op : AtomOp) (wide : Bool) (dst : Option Nat) (items : List (Acc × W64 × W64)) (ar : Option Scope)
  | rel (c : Scope) (act : RelAct)
  deriving DecidableEq, Repr

/-- A store-FIFO entry with its place in the group's program order and the depth of its frame. -/
structure FEnt where
  seq : Nat
  depth : Nat
  op : FOp
  pc : W64 := 0
  mask : Mask := 0
  /-- The rows it takes its data from, each by the depth of the frame that owns it (R186). -/
  src : List (Nat × Nat) := []
  deriving DecidableEq, Repr

/-- Why lanes wait (R39). -/
inductive Wait where
  | ret (j : Nat)
  | rti
  | bar (l : Level)
  | barArr (l : Level)
  | barWt (l : Level)
  | frame
  | sem (k : Nat) (v : W64)
  | hpush (h : Nat)
  | hpop (h s : Nat)
  | wq (w : Nat)
  | pan (op : Nat)
  | bin
  /-- `yield`, with the issues of its scheduler that it still waits for (R190). -/
  | yield (n : Nat)
  | stop
  /-- A load or atomic at this place in the program order waits for a memory request of its core (R209). -/
  | req (seq : Nat)
  deriving DecidableEq, Repr

/-- A fault in the making (R397): kind, faulting lanes, addr, aux. -/
structure Flt where
  kind : Nat
  mask : Mask
  addr : W64
  aux : W64
  deriving DecidableEq, Repr

/-- An entry of the trap stack (R195), with what `rti` needs of a fault entry (R399). -/
structure TrapEnt where
  pcs : Vector W64 64
  mask : Mask
  mode : Bool
  code : BitVec 16
  val : W64
  depth : Nat
  /-- The fault that pushed it, its instruction's address and length; none for `brk`. -/
  flt : Option (Flt × W64 × Nat)
  /-- The handler has written %trapval at this level (R418). -/
  wrote : Bool
  deriving DecidableEq, Repr

/-- The registers of a group beside its frames. -/
structure Regs where
  /-- s16 to s31 (R146). -/
  gs : FMap Sc := []
  /-- p0 to p11. -/
  p : FMap Mask := []
  /-- b0 to b3 and whether each is valid (R116). -/
  slots : FMap Vals := []
  valid : BitVec 4 := 0
  /-- Consecutive issues since the last invalidation (R116). -/
  count : Nat := 0
  mode : Bool := false
  trapcode : BitVec 16 := 0
  trapval : W64 := 0
  unw : Nat := 0
  xqsel : BitVec 2 := 0
  traps : List TrapEnt := []
  /-- Escalated and not yet popped since (R420). -/
  escalated : Bool := false
  deriving DecidableEq, Repr

/-- What a core has captured of an instruction that met a translation fault at its issue (R426, R445): its address, its issue mask, and the operands
as its registers held them. -/
structure Replay where
  pc : W64
  mask : Mask
  top : Frame
  regs : Regs
  deriving DecidableEq, Repr

/-- What a parked group is parked for (R191, R400, R420, R445). -/
inductive ParkWhy where
  | trap (code : BitVec 16)
  | fault
  | brk (code : BitVec 16)
  | escal (orig : Nat)
  /-- A handler aborted the fault (R399). -/
  | abort
  deriving DecidableEq, Repr

/-- A park (R191, R400): the record is written once the group has drained. -/
structure Park where
  why : ParkWhy
  flt : Flt
  mask : Mask
  pc : W64
  len : Nat
  serial : Nat
  /-- The record has been written (or is held) and an answer may come. -/
  sent : Bool
  /-- The class of the fault, 1 or 2. -/
  cls : Nat
  /-- s0 and s1 of the frame on top receive a trap's results. -/
  depth : Nat
  /-- The slot that the record names. -/
  loc : Nat := 0
  /-- An answer that firmware holds while the group is off the device (R193): status and results. -/
  ans : Option (Nat × W64 × W64) := none
  /-- The operands of an instruction that a translation fault has stopped (R445). -/
  ops : Option Replay := none
  /-- The group parked on a study core (R422). -/
  away : Bool := false
  deriving DecidableEq, Repr

/-- A group stall that is no lane wait: the answer of the distributor (R303, R331) or the plane clear of `dmark` (R332). -/
inductive Stall where
  | launch (pc : W64) (mask : Mask) (card : List Byte) (s : Nat) (relaunch : Bool) (off : W64)
  | plane
  /-- `enq` with cards whose jobs have not entered the table yet (R239): their address and scope of entry. -/
  | enq (pc : W64) (cards : List (List Byte))
  deriving DecidableEq, Repr

/-- What a group knows of one barrier level (R226). -/
structure BarSt where
  issued : Mask := 0
  /-- It has arrived at the current phase. -/
  arrived : Bool := false
  /-- It arrived with `bar.arr` and has not yet waited: the phase. -/
  memo : Option Nat := none
  deriving DecidableEq, Repr

/-- A pantry instruction whose answers have not all landed (R277). -/
structure PanOp where
  id : Nat
  /-- Its place in the group's program order. -/
  seq : Nat
  mask : Mask
  left : List Nat
  dst : Option Nat
  depth : Nat
  pc : W64
  /-- Its record on the study core that issued it is to be written when it lands (R349). -/
  traced : Bool := false
  deriving DecidableEq, Repr

/-- How a group stands to a study core (R338 to R355). -/
structure Study where
  mark : Option Nat := none
  /-- Migrating to, or on, this study core and slot; the state of the move. -/
  core : Nat := 0
  slot : Nat := 0
  /-- 0 at home, 1 migrating, 2 on the study core, 3 returning, 4 stopped at home for a move of its team (R314). -/
  phase : Nat := 0
  cause : Nat := 0
  /-- The reason the return in progress will report (R355). -/
  reason : Nat := 0
  /-- A return is due at the next instruction that may wait: its reason. -/
  due : Option Nat := none
  quota : Nat := 0
  ctl : W64 := 0
  /-- The pace count of R346. -/
  pace : Nat := 0
  /-- The address of its last `exit` on a study core (R360). -/
  exitPc : W64 := 0
  /-- Loads, atomics and pantry instructions whose completion stops it (R348), by their place in its program order. -/
  halt : List Nat := []
  /-- Lanes of an instruction that waits, and whose completion stops it (R348). -/
  haltMask : Mask := 0
  deriving DecidableEq, Repr

/-- The lanes of a group (R31, R39): positions that hold a lane, finished lanes, identities, program counters, waits. -/
structure Lanes where
  present : Mask := 0
  fin : Mask := 0
  tid : Vector (BitVec 10) 64 := Vector.replicate 64 0
  pc : Vector W64 64 := Vector.replicate 64 0
  waits : List (Wait × Mask) := []
  deriving DecidableEq, Repr

/-- The memory side of a group. -/
structure Mio where
  seq : Nat := 0
  fifo : List FEnt := []
  loads : List Ld := []
  pans : List PanOp := []
  bars : FMap BarSt := []
  /-- Acquires that waiting lanes carry: the wait, its lanes, its place in the program order (R219, R284). -/
  acqs : List (Wait × Mask × Nat) := []
  deriving DecidableEq, Repr

/-- A fault found away from issue (R399, R424, R438): the fault, the lanes of its instruction, that instruction's address, the class. -/
structure Due where
  flt : Flt
  mask : Mask
  pc : W64
  cls : Nat
  deriving DecidableEq, Repr

/-- A group, in the slot of its key (64 · die + core) · 128 + slot (R28). -/
structure Group where
  live : Bool := false
  grid : Nat := 0
  team : Nat := 0
  num : Nat := 0
  role : Nat := 0
  lanes : Lanes := {}
  /-- The frame chain, the top frame first (R178). -/
  frames : List Frame := []
  regs : Regs := {}
  mio : Mio := {}
  park : Option Park := none
  /-- Faults found away from issue, which the group's next issues raise in order. -/
  due : List Due := []
  stall : Option Stall := none
  study : Study := {}
  /-- The instruction that it replays next, after the answer retry to kind 0x0701 (R445). -/
  replay : Option Replay := none
  /-- The module's issue count at its last issue, by which the cellar engine orders groups (R185). -/
  age : Nat := 0
  deriving DecidableEq, Repr

/-- A reform bin (R44, R45). -/
structure Bin where
  pc : W64
  role : Nat
  shape : List (Nat × Nat)
  /-- Each lane with a copy of the group it left and its position there. -/
  lanes : List (Nat × Nat × Nat)
  due : Bool
  deriving DecidableEq, Repr

/-- A group's request at a work queue, or an APPEND that waits there (R251, R252, R373). -/
structure WqReq where
  /-- The group; for an APPEND a number that no group has. -/
  grp : Nat
  push : Bool
  off : Nat
  mask : Mask
  /-- Its place in the group's program order. -/
  seq : Nat := 0
  /-- The queue and the place there of the APPEND that waits. -/
  cmd : Option (Nat × Nat) := none
  deriving DecidableEq, Repr

/-- A request at, or on its way to, a pantry slice (R271 to R277). -/
structure PReq where
  msg : PMsg
  asn : Nat
  vf : Nat
  grp : Nat
  op : Nat
  /-- 0 in flight, 1 held, 2 parked, 3 answered, 4 saved with its pre-empted team (R56). -/
  st : Nat
  ans : Option (List W64)
  /-- Its place in the parking order. -/
  ord : Nat := 0
  /-- Its withdrawal is on the way (R277). -/
  wd : Bool := false
  /-- The team and the number of the group that sent it: a resumed team may stand in other slots (R57). -/
  team : Nat := 0
  num : Nat := 0
  deriving DecidableEq, Repr

/-- What the checkpoint of a guarded team holds (R49). -/
structure Ckpt where
  groups : FMap Group
  scr : Mem
  hatch : FMap (List W32)
  xq : FMap (Nat × Nat)
  sems : List W64
  /-- The waiters of its hatches, its sleepers at work queues and its pantry requests: lanes of lower frames may wait there. -/
  pushers : List (Nat × Nat × W32 × Mask × Bool)
  poppers : List (Nat × Nat × Nat × Mask)
  wq : List (Nat × WqReq)
  preqs : List (Nat × PReq)
  deriving DecidableEq, Repr

/-- The interval of a guarded team (R49 to R53, R440). -/
structure Guardd where
  ckpt : Option Ckpt := none
  published : Bool := false
  /-- The undo area: each logged line of global memory with its bytes, its virtual address, and whether its page is memory-side. -/
  undo : FMap (List Byte × Nat × Bool) := []
  /-- 64-byte scratchpad lines logged, each with its bytes at the first write. -/
  scrLog : FMap (List Byte) := []
  /-- Rows copied into the shadow pool: group, depth, row (v 0 to 59, 64 + m). -/
  shadow : List (Nat × Nat × Nat) := []
  /-- Rollbacks since the checkpoint. -/
  tries : Nat := 0
  /-- Jobs begun in the interval. -/
  jobs : List Nat := []
  /-- Frames of groups that have retired or dissolved since the checkpoint, by slot: their rows stay with the team (R37). -/
  held : List (Nat × List Frame) := []
  /-- Frames, by slot and depth, that have returned their rows to the pool since the checkpoint (R187). -/
  popped : List (Nat × Nat) := []
  /-- The address of an entry of the undo area, scratchpad log or shadow pool that is damaged (R443, LOG 117). -/
  damaged : Option Nat := none
  deriving DecidableEq, Repr

/-- The recorder of a recordable team (R318). -/
structure Recorder where
  ranges : List (Nat × Nat) := []
  merged : Bool := false
  host : Bool := false
  whole : Bool := false
  gen : Nat := 0
  deriving DecidableEq, Repr

/-- The states of R235. -/
inductive JobSt where | waiting | ready | running | completing | faulted
  deriving DecidableEq, Repr

/-- A job-table entry (R235 to R248). -/
structure Job where
  team : Nat
  grid : Nat
  grp : Nat
  pc : W64
  card : List Byte
  st : JobSt
  /-- Predecessors not yet complete. -/
  preds : List Nat
  /-- Chunks done (R248). -/
  done : List Nat
  /-- Entries appended (XQD) or steps done (collective). -/
  step : Nat
  /-- The descriptor and working buffer of a collective. -/
  desc : List Byte
  buf : List Byte
  /-- Destination units poisoned (R438): region, number, unit; for a collective, places of its buffer (region 9). -/
  px : List (Nat × Nat × Nat)
  /-- The serial of its last record (R446). -/
  serial : Nat
  /-- Its `enq`'s place in the group's program order (R242). -/
  seq : Nat
  /-- Chunk that a translation fault stopped, and whether it has been retried (R446). -/
  stop : Option (Nat × Bool)
  born : Nat
  /-- The core and entry, 64 · core + entry, that its last record names, and an answer that firmware holds (R193). -/
  loc : Nat := 0
  ans : Option Nat := none
  deriving DecidableEq, Repr

/-- What a frame wait gives when it is served (R184). -/
inductive FwAct where
  | call (f : Frame) (target : W64)
  | handler (f : Frame) (target : W64) (ent : TrapEnt) (code : BitVec 16) (val : W64)
  | refill
  | bin (team : Nat)
  deriving DecidableEq, Repr

/-- A frame wait in the line of R184. -/
structure FrameWait where
  grp : Nat
  rows : Nat
  act : FwAct
  deriving DecidableEq, Repr

/-- A team placed on a core (R28, R35, R36). -/
structure Team where
  live : Bool := false
  grid : Nat := 0
  lin : Nat := 0
  core : Nat := 0
  /-- The core that %suite, %die and %dieclass read: where it was placed, or moved (R16, R32); a resume leaves them as they read (R57). -/
  first : Nat := 0
  gang : Nat := 0
  /-- Teams of its gang by position. -/
  gangTeams : List Nat := []
  slots : List Nat := []
  /-- Group numbers whose slots have returned to the core (R37). -/
  back : List Nat := []
  scr : Mem := []
  scrPx : List Nat := []
  semBase : Nat := 0
  hatch : FMap (List W32) := []
  /-- Handles that are damaged: hatch, place from the oldest on (R434). -/
  hatchPx : List (Nat × Nat) := []
  /-- Waiting pushers (hatch, group, handle, lanes, whether the release is complete) and poppers (hatch, group, scalar + 32 · depth of its frame,
  lanes), in the order in which they began to wait (R231). -/
  pushers : List (Nat × Nat × W32 × Mask × Bool) := []
  poppers : List (Nat × Nat × Nat × Mask) := []
  xq : FMap (Nat × Nat) := []
  bins : List Bin := []
  /-- The groups that reform has dissolved: their copies, read when a bin leaves (R46). -/
  ghosts : FMap Group := []
  guard : Guardd := {}
  rbk : W32 := 0
  recd : Recorder := {}
  /-- 0 running, 1 stopping at its next team barrier, 2 saved (R54). -/
  pre : Nat := 0
  /-- The distributor has told it to move to this core (R314). -/
  going : Option Nat := none
  /-- Watchdog windows in which it may not be moved again. -/
  moved : Nat := 0
  /-- What a pre-empted team keeps beside itself: groups with the slot they left, jobs by entry, semaphores, work-queue sleepers, frame waits
  (R55). -/
  savedGroups : List (Nat × Group) := []
  savedJobs : FMap Job := []
  savedSems : List W64 := []
  savedWq : List (Nat × WqReq) := []
  savedLine : List FrameWait := []
  deriving DecidableEq, Repr

/-- A bound register (R448). -/
structure Bd where
  base : Nat := 0
  len : Nat := 0
  lo : W32 := 0
  hi : W32 := 0
  fmt : Nat := 0
  act : Nat := 0
  count : Nat := 0
  deriving DecidableEq, Repr

/-- A relaunch in progress (R325). -/
structure Relaunch where
  attic : Nat
  round : Nat
  /-- Teams still to be placed in this round, teams run in this round, and the rest. -/
  todo : List Nat
  rest : List Nat
  q : Nat
  rerun : List (Nat × Nat)
  all : Bool
  begun : Bool
  deriving DecidableEq, Repr

/-- How a grid runs: placement, retirement, watch and pre-emption. -/
structure Run where
  /-- Linear index of the next team to place. -/
  next : Nat := 0
  retired : Nat := 0
  /-- 0 running, 1 complete. -/
  done : Bool := false
  status : Nat := 0
  rollbacks : Nat := 0
  overrun : BitVec 16 := 0
  hang : Nat := 0
  progress : Bool := false
  inel : Bool := true
  preRun : Nat := 0
  /-- 0 not pre-empted, 1 draining, 2 saved. -/
  pre : Nat := 0
  acks : List Engine := []
  /-- Slice ends seen while it waited first in the line, and while it ran since it was placed or resumed (R307, R308). -/
  waited : Nat := 0
  slices : Nat := 0
  /-- Teams run (R304). -/
  ran : Nat := 0
  /-- Dies whose parlour is carved (R18), and dies whose co-resident block is placed (R311). -/
  parlour : List Nat := []
  blocks : List Nat := []
  /-- The candidate dies by which its co-resident blocks were divided when the first was placed (R311). -/
  split : List Nat := []
  /-- Teams moved or going for a gang that it is to place (R313): the first linear index of the gang's teams that are placed together, the team. -/
  moves : List (Nat × Nat) := []
  deriving DecidableEq, Repr

/-- An accepted grid (R299 to R305). -/
structure Grid where
  vf : Nat
  num : W32
  card : List Byte
  bind : List Byte
  pool : List (List Byte)
  prio : Nat
  /-- Predecessor edges: grid key, whether completion, whether resolved (R305). -/
  edges : List (Nat × Bool × Bool)
  /-- Its place in the order of acceptance (R307). -/
  order : Nat := 0
  /-- Home queue and, for a host command, its index in the queue (R400). -/
  home : Nat
  cmd : Option Nat
  run : Run := {}
  rl : Option Relaunch := none
  bds : FMap Bd := []
  deriving DecidableEq, Repr

/-- A cached line (R65, R67): valid bytes with a dirty mark each, and poisoned sectors. -/
structure Line where
  host : Bool := false
  /-- Its page is memory-side (R73). -/
  ms : Bool := false
  bytes : FMap (Byte × Bool) := []
  px : List Nat := []
  deriving DecidableEq, Repr

/-- A matrix operation in the core's engine (R255). -/
structure MxOp where
  grp : Nat
  depth : Nat
  sparse : Bool
  a : Nat
  b : Nat
  dq : Nat
  word : W32
  xq : Nat
  started : Bool
  /-- The popped sparse index entries (R259). -/
  idx : List Vals
  pc : W64
  /-- The lanes that issued it. -/
  mask : Mask
  /-- Its completion stops its group (R348). -/
  halts : Bool := false
  deriving DecidableEq, Repr

/-- A translation held by a TLB (R81). -/
structure TlbEnt where
  asn : Nat
  page : Nat
  level : Nat
  pte : W64
  deriving DecidableEq, Repr

/-- A page whose misses wait for one walk of a die (R81): the 64 KiB granule that missed first, and the cores whose misses have joined. -/
structure Miss where
  asn : Nat
  page : Nat
  cores : List Nat
  deriving DecidableEq, Repr

/-- A line that the instruction cache of a core, compute or study, holds for a grid (R64): the line's key, its bytes, its poisoned sectors. -/
structure ILine where
  grid : Nat
  key : Nat
  bytes : List Byte
  px : List Nat
  deriving DecidableEq, Repr

/-- A compute core, key 64 · die + core (its TLB: R81). -/
structure Core where
  tlb : List TlbEnt := []
  clk : W64 := 0
  /-- The core has left reset (R27). -/
  up : Bool := false
  seed : W32 := 1
  gens : FMap W32 := []
  sems : FMap W64 := []
  l1 : FMap Line := []
  /-- The dirty-line FIFO (R68). -/
  dirty : List Nat := []
  jobs : FMap Job := []
  mx : List MxOp := []
  /-- Arming registers 0 to 6 of R363. -/
  arm : FMap W64 := []
  line : List FrameWait := []
  cellar : Nat := 0
  serials : FMap (BitVec 16) := []
  born : Nat := 0
  /-- `born` of the job whose chunk the copy engine moved last (R235). -/
  turn : Nat := 0
  deriving DecidableEq, Repr

/-- A generation of the value history (R353). -/
structure Hist where
  w : Vals
  pc : W64
  count : Nat
  deriving DecidableEq, Repr

/-- A study core, key 64 · die + core (R335, R347, R350, R363). -/
structure StudyCore where
  /-- Registers 8 to 207 of the study window that are not computed. -/
  reg : FMap W64 := []
  serial : BitVec 16 := 0
  gen : W32 := 1
  /-- Group of each study slot. -/
  slots : FMap Nat := []
  /-- The queue of its matrix engine (R335, R343). -/
  mx : List MxOp := []
  /-- Value histories: slot, depth, row (64 + m for m rows), newest first. -/
  hist : List ((Nat × Nat × Nat) × List Hist) := []
  failed : Bool := false
  full : Bool := false
  deriving DecidableEq, Repr

/-- A die (0 to 3), or the hub (4). -/
structure Die where
  count : W64 := 0
  visitors : FMap Line := []
  tlb : List TlbEnt := []
  online : Bool := true
  inService : Bool := false
  /-- Firmware core: 0 serving, 1 reloading, 2 failed (R466). -/
  fw : Nat := 0
  /-- The queue, 16 · vf + number, from which the firmware core took its last command (R372). -/
  turn : Nat := 0
  deriving DecidableEq, Repr

/-- A pantry region (R265): virtual start, size in bytes, items oldest first with the VF that stored each. -/
structure Region where
  size : Nat
  items : List (Nat × List W64)
  frames : List Nat
  deriving DecidableEq, Repr

/-- An address space (R79, R321). -/
structure Space where
  root : Option Nat := none
  gen : Nat := 1
  planes : FMap (List Nat) := []
  /-- Planes filled by an uncorrectable error (R432); no step of the table damages one (LOG 117). -/
  allDirty : List Nat := []
  regions : FMap Region := []
  deriving DecidableEq, Repr

/-- A fetched command (R365, R369): its 64 bytes, whether it has started, its completion status, whether it was refused. -/
structure Cmd where
  bytes : List Byte
  started : Bool := false
  status : Option Nat := none
  refused : Bool := false
  /-- Records that an APPEND has appended (R373). -/
  step : Nat := 0
  /-- The die whose firmware core has started it, and finishes it (R372). -/
  by_ : Nat := 4
  deriving DecidableEq, Repr

/-- The fields of a queue control block (R364). -/
structure Qcb where
  base : Nat := 0
  size : Nat := 0
  exsize : Nat := 0
  exbase : Nat := 0
  head : Nat := 0
  done : Nat := 0
  seq : W32 := 0
  enabled : Bool := false
  stopped : Bool := false
  exprod : Nat := 0
  tail : Nat := 0
  deriving DecidableEq, Repr

/-- A command queue (R362, R364, R403). -/
structure Queue where
  addr : W64 := 0
  cb : Qcb := {}
  shadow : Qcb := {}
  ack : Nat := 0
  /-- Records held back (R403). -/
  held : List (List Byte) := []
  /-- The commands fetched and not yet counted. -/
  cmds : FMap Cmd := []
  /-- It has stopped because the slot at `head` could not be read (R464). -/
  unread : Bool := false
  /-- Its shadow copy is uncorrectable (R467). -/
  shadowPx : Bool := false
  latched : Option W64 := none
  deriving DecidableEq, Repr

/-- A work queue (R374). -/
structure Wq where
  base : Nat
  size : Nat
  head : Nat
  tail : Nat
  line : List WqReq
  deriving DecidableEq, Repr

/-- A ring in host memory with its counters (R375, R402). -/
structure Ring where
  base : Nat := 0
  size : Nat := 0
  set : Bool := false
  prod : Nat := 0
  cons : Nat := 0
  held : List (List Byte) := []
  deriving DecidableEq, Repr

/-- A virtual function; 128 is the physical function (R362). -/
structure Vf where
  queues : FMap Queue := []
  svc : Ring := {}
  err : Ring := {}
  lost : W32 := 0
  c0 : Bool := false
  maxprio : Nat := 7
  vector : W64 := 0
  asn : Option Nat := none
  part : Nat := 0
  quota0 : W64 := 0x0103FFFFFE000040
  quota1 : W64 := 0x00000040FFFFFFFF
  nextGrid : W32 := 1
  ints : List Nat := []
  wqs : FMap Wq := []
  /-- It has been contained, and no queue of it has been set anew since (R406, R407, LOG 143). -/
  contained : Bool := false
  deriving DecidableEq, Repr

/-- A partition (R388, R429, R308). -/
structure Part where
  reg : W64 := 0
  colour : W64 := 0xFFFFFFFFFFFFFFFF
  wdog : W64 := 0x0100271000000064
  slice : Nat := 2000
  deriving DecidableEq, Repr

/-- One barrier of a grid (R225, R226): level and instance, phase, groups that have arrived. -/
structure BarUnit where
  grid : Nat
  level : Level
  inst : Nat
  phase : Nat
  arrived : List Nat
  deriving DecidableEq, Repr

/-- A wear register with its half-swing state (R382, R383). -/
structure Wear where
  hours : Nat := 0
  half : Nat := 0
  pcyc : Nat := 0
  rising : Bool := false
  ext : Option Int := none
  deriving DecidableEq, Repr

/-- What the non-volatile store keeps (R379, R383, R441, R469, R471, R456). -/
structure Nv where
  wear : FMap Wear := []
  wearlim : W64 := 0xFFFFFFFFFFFFFFFF
  /-- Retired frames, each with the stack of its damaged sector (R441). -/
  retired : List (Nat × Nat) := []
  newImage : List Byte := []
  /-- The image that recovery mode wrote and a start has taken (R469); empty while image A is the one of the factory. -/
  imageA : List Byte := []
  /-- The last good training results (R379) by unit: 0 the link, 1 + n a stack, 13 + n a port (LOG 115). -/
  results : FMap Nat := []
  kept : List (List Byte) := []
  deriving DecidableEq, Repr

/-- What a read of the host's carries back (R438, R472). -/
inductive ApMark where
  | sound
  | poison
  /-- An error completion: no bytes. -/
  | refused
  deriving DecidableEq, Repr

/-- The answer to a read of the host's, in a flit (R361). -/
structure ApAnswer where
  flit : Nat
  bytes : List Byte
  mark : ApMark
  deriving DecidableEq, Repr

/-- The link (R461 to R463). -/
structure Link where
  retrain : Nat := 0
  replay : Nat := 0
  crc : Nat := 0
  keypend : Bool := false
  actkey : Bool := false
  state : Nat := 0
  /-- Which of the two key slots hold a key. -/
  keys : Bool × Bool := (true, true)
  expect : Nat := 0
  /-- The flit that was last rejected at the other end, and how often in a row. -/
  fails : Nat × Nat := (0, 0)
  tagFails : Nat := 0
  /-- Flits sent and not acknowledged: number and key slot (R462). -/
  buffer : List (Nat × Bool) := []
  sent : Nat := 0
  /-- Flits that wait for room in the replay buffer, or for the link to be trained again (R462). -/
  held : Nat := 0
  roll : Option Nat := none
  /-- A negative acknowledgement has been sent for the expected flit. -/
  nak : Bool := false
  /-- Answers to reads of the host's, in flits that have not been acknowledged (R361, R462). -/
  answers : List ApAnswer := []
  deriving DecidableEq, Repr

/-- The module: start, wear, cut, rings of the physical function, link. -/
structure Module where
  powered : Bool := true
  /-- 0 verifying, 1 safe, 2 full, 15 halted (R468). -/
  stage : Nat := 0
  verified : Bool := false
  img : Nat := 0
  fallbk : Nat := 0
  dieOff : BitVec 4 := 0
  stkOff : BitVec 12 := 0
  portOff : List Nat := []
  nv : Nv := {}
  wear : FMap Wear := []
  link : Link := {}
  cutId : W32 := 0
  cutState : Nat := 0
  cutMask0 : W64 := 0
  cutMask1 : W64 := 0
  deriving DecidableEq, Repr

/-- More of the module. -/
structure Module2 where
  pfErr : Ring := {}
  pferrc0 : W64 := 0
  /-- Markers of cuts that have arrived: port and identifier (R394). -/
  markers : List (Nat × W32) := []
  /-- Frames (64 KiB) whose wipe has not been acknowledged, ranges (first, last) of frames that firmware allocates from, and
  those of them that it has given away (R381). -/
  wiping : List Nat := []
  free : List (Nat × Nat) := []
  taken : List Nat := []
  /-- Shuton ports trained (R377). -/
  ports : List Nat := []
  deriving DecidableEq, Repr

/-- Which agent acts next (LOG 1). -/
inductive Choice where
  | issue (g : Nat)
  | event (i : Instr)
  deriving DecidableEq, Repr

/-- All of memory that is not a register. -/
structure Store where
  dev : Mem := []
  devPx : List Nat := []
  host : Mem := []
  /-- What has been written to host memory while the Chikar link retrained: it reaches the host when the link is up again (R462). -/
  late : FMap Byte := []
  /-- Sectors in which damage has been found, and not merely poison put there (R436, R441). -/
  found : List Nat := []
  parlours : List ((Nat × Nat) × Mem) := []
  parPx : List (Nat × Nat × Nat) := []
  deriving DecidableEq, Repr

/-- Why a step stops the machine. -/
inductive Fault where
  /-- Raised by `step` alone: the module has no power (after POWER_LOSS), and nothing but POWER_GOOD can happen. Safe: the part does nothing then. -/
  | poweredOff
  deriving DecidableEq, Repr

/-- Why there is no step. -/
inductive Refusal where
  /-- Raised by an arm of `exec` whose instruction has no meaning yet. Safe. -/
  | notModelled (mnemonic : String)
  deriving DecidableEq, Repr

/-- The state of the module. -/
structure State where
  groups : FMap Group := []
  teams : FMap Team := []
  grids : FMap Grid := []
  cores : FMap Core := []
  studies : FMap StudyCore := []
  dies : FMap Die := []
  spaces : FMap Space := []
  vfs : FMap Vf := []
  parts : FMap Part := []
  preqs : FMap PReq := []
  bars : List BarUnit := []
  mem : Store := {}
  mod_ : Module := {}
  mod2 : Module2 := {}
  /-- Walks of each die, in the order of arrival: the first 256 run, the others queue (R81). -/
  walks : FMap (List Miss) := []
  /-- The instruction cache of each core (R64). -/
  icaches : FMap (List ILine) := []
  /-- Hatch slots that each kernel declares (R230), kept with the kernel's entry address (asn · 2^64 + entry): slots of h0 to h7 (LOG 10). -/
  decls : FMap (List Nat) := []
  /-- The model's own: the group whose turn it is, the agents' order (LOG 1), the counter of free values (LOG 4). -/
  cur : Nat := 0
  /-- The model's own: the groups that are ready as a `yield` issues (R190, R315), which the step that issues it finds. -/
  readies : List Nat := []
  /-- Issues of the module so far. -/
  issues : Nat := 0
  agenda : List Choice := []
  fresh : Nat := 0
  /-- The model's own: numbers given to teams, requests and jobs. -/
  ids : Nat := 0
  deriving DecidableEq, Repr

/-- Right after a module reset: every memory wiped (R380), no team placed, verification under way (R377),
PART0 with everything and the other partitions disabled (R388). -/
def State.reset : State :=
  { parts := [(0, { reg := 0x0000018020080200 })] }

end Sys2Proof.Machine
end

