-- ==== Sys2Proof/Machine/Maps.lean ====
section
/-! DEFINITION. Tables, byte memory, lane masks and byte strings: the helpers that the operations of the machine share. -/

namespace Sys2Proof.Machine

/-- The entry of a key, or `d`. -/
def get {α : Type} (d : α) : FMap α → Nat → α
  | [], _ => d
  | (j, v) :: t, k => if j = k then v else get d t k

/-- The entry of a key, if listed. -/
def get? {α : Type} : FMap α → Nat → Option α
  | [], _ => none
  | (j, v) :: t, k => if j = k then some v else get? t k

/-- Give a key an entry, keeping the keys in ascending order. -/
def put {α : Type} : FMap α → Nat → α → FMap α
  | [], k, v => [(k, v)]
  | (j, w) :: t, k, v => if k = j then (k, v) :: t else if k < j then (k, v) :: (j, w) :: t else (j, w) :: put t k v

/-- Remove a key. -/
def drop {α : Type} (m : FMap α) (k : Nat) : FMap α := m.filter (fun e => e.1 != k)

/-- The byte at an address; an unlisted address reads as 0 (LOG 2). -/
def Mem.read : Mem → Nat → Byte
  | [], _ => 0
  | (j, v) :: t, a => if j = a then v else Mem.read t a

/-- List a byte at its place. -/
def Mem.insert : Mem → Nat → Byte → Mem
  | [], k, v => [(k, v)]
  | (j, w) :: t, k, v => if k = j then (k, v) :: t else if k < j then (k, v) :: (j, w) :: t else (j, w) :: Mem.insert t k v

/-- Write a byte; writing what an unlisted address reads as removes the entry. -/
def Mem.write (m : Mem) (a : Nat) (b : Byte) : Mem :=
  if b = 0 then m.filter (fun e => e.1 != a) else Mem.insert m a b

/-- The canonical form: addresses strictly rising, no entry equal to 0. -/
def Mem.wf : Mem → Bool
  | [] => true
  | [(_, v)] => v != 0
  | (a, v) :: (b, w) :: t => v != 0 && decide (a < b) && Mem.wf ((b, w) :: t)

/-- `n` bytes from an address upwards. -/
def Mem.readN (m : Mem) (a : Nat) : Nat → List Byte
  | 0 => []
  | n + 1 => m.read a :: Mem.readN m (a + 1) n

/-- Write bytes from an address upwards. -/
def Mem.writeN (m : Mem) (a : Nat) : List Byte → Mem
  | [] => m
  | b :: t => Mem.writeN (m.write a b) (a + 1) t

/-- The number that bytes hold, little-endian (R3). -/
def leNat : List Byte → Nat
  | [] => 0
  | b :: t => b.toNat + 256 * leNat t

/-- The `n` bytes of a number, little-endian (R3). -/
def leBytes : Nat → Nat → List Byte
  | 0, _ => []
  | n + 1, x => BitVec.ofNat 8 x :: leBytes n (x / 256)

/-- The number in bytes [off, off + n) of a byte string. -/
def fieldAt (bs : List Byte) (off n : Nat) : Nat := leNat ((bs.drop off).take n)

/-- Replace bytes of a byte string from `off`. -/
def setField (bs : List Byte) (off n x : Nat) : List Byte := bs.take off ++ leBytes n x ++ bs.drop (off + n)

/-- A 64-byte string of zeros. -/
def zeros (n : Nat) : List Byte := List.replicate n 0

/-- Lane L is in the mask. -/
def has (m : Mask) (l : Nat) : Bool := m.getLsbD l

/-- The mask of the lanes that satisfy `p`. -/
def maskOf (p : Nat → Bool) : Mask := BitVec.ofFnLE (fun i : Fin 64 => p i.val)

/-- The lanes of a mask in ascending order. -/
def lanesOf (m : Mask) : List Nat := (List.range 64).filter (has m)

/-- How many lanes a mask holds. -/
def countOf (m : Mask) : Nat := (lanesOf m).length

/-- The lowest lane of a mask, 0 for the empty mask. -/
def lowestOf (m : Mask) : Nat := (lanesOf m).headD 0

/-- The word of lane L. -/
def lane (v : Vals) (l : Nat) : W32 := v.toList.getD l 0

/-- The row with word `f L` in lane L. -/
def tab (f : Nat → W32) : Vals := Vector.ofFn (fun i : Fin 64 => f i.val)

/-- The row that holds `new` in the lanes of `m` and `old` in the others. -/
def blend (m : Mask) (new old : Vals) : Vals := Vector.ofFn (fun i : Fin 64 => if has m i.val then new[i.val] else old[i.val])

/-- Program counters: the lanes of `m` receive `f L`. -/
def setPcs (m : Mask) (f : Nat → W64) (pc : Vector W64 64) : Vector W64 64 :=
  Vector.ofFn (fun i : Fin 64 => if has m i.val then f i.val else pc[i.val])

/-- The program counter of lane L. -/
def pcOf (pc : Vector W64 64) (l : Nat) : W64 := pc.toList.getD l 0

/-- A 64-bit value from two lane words (R145). -/
def join (lo hi : W32) : W64 := hi ++ lo
/-- The low word. -/
def loW (x : W64) : W32 := x.extractLsb' 0 32
/-- The high word. -/
def hiW (x : W64) : W32 := x.extractLsb' 32 32

/-- Bits of a 64-bit register as a number. -/
def bits (x : W64) (lo n : Nat) : Nat := x.toNat / 2 ^ lo % 2 ^ n

/-- Replace bits of a 64-bit register. -/
def setBits (x : W64) (lo n v : Nat) : W64 :=
  BitVec.ofNat 64 (x.toNat / 2 ^ (lo + n) * 2 ^ (lo + n) + (v % 2 ^ n) * 2 ^ lo + x.toNat % 2 ^ lo)

/-- Insert a number into an ascending list without repeats. -/
def insertNat : Nat → List Nat → List Nat
  | k, [] => [k]
  | k, j :: t => if k = j then j :: t else if k < j then k :: j :: t else j :: insertNat k t

/-- The first element of a list that satisfies `p`, with its index. -/
def findIdx {α : Type} (p : α → Bool) : List α → Option (Nat × α)
  | [] => none
  | a :: t => if p a then some (0, a) else (findIdx p t).map (fun e => (e.1 + 1, e.2))

/-- The element of a list that has the least value of `f`, the first among equals. -/
def leastBy {α : Type} (f : α → Nat) : List α → Option α
  | [] => none
  | a :: t => match leastBy f t with
    | none => some a
    | some b => if f a ≤ f b then some a else some b

end Sys2Proof.Machine
end

