-- ==== Sys2Proof/Machine/Flags.lean ====
section
/-! DEFINITION. Integer arithmetic and comparisons (R83, R84, R121, R149, R164, R169, R221): the IZ-4 sets no flags, so that a comparison's
result is a predicate. -/

namespace Sys2Proof.Machine

/-- The twenty operations of R149. -/
inductive IOp where
  | add | sub | mul | mulhS | mulhZ | mad | minS | minZ | maxS | maxZ | and | or | xor | andn | shl | shr | sar | rotl | adds | subs
  deriving DecidableEq, Repr

/-- An exact value clamped to the signed range of n bits (R84). -/
def satS (n : Nat) (x : Int) : BitVec n :=
  if x < -(2 ^ (n - 1) : Int) then BitVec.ofInt n (-(2 ^ (n - 1) : Int))
  else if (2 ^ (n - 1) : Int) - 1 < x then BitVec.ofInt n ((2 ^ (n - 1) : Int) - 1) else BitVec.ofInt n x

/-- An exact value clamped to the unsigned range of n bits (R89). -/
def satZ (n : Nat) (x : Int) : BitVec n :=
  if x < 0 then 0 else if (2 ^ n : Int) - 1 < x then BitVec.ofInt n ((2 ^ n : Int) - 1) else BitVec.ofInt n x

/-- The element result of R149, at element width n. -/
def iop (n : Nat) (o : IOp) (x y z : BitVec n) : BitVec n :=
  match o with
  | .add => x + y
  | .sub => x - y
  | .mul => x * y
  | .mulhS => BitVec.ofInt n (x.toInt * y.toInt / 2 ^ n)
  | .mulhZ => BitVec.ofNat n (x.toNat * y.toNat / 2 ^ n)
  | .mad => x * y + z
  | .minS => if x.toInt ≤ y.toInt then x else y
  | .minZ => if x.toNat ≤ y.toNat then x else y
  | .maxS => if x.toInt ≤ y.toInt then y else x
  | .maxZ => if x.toNat ≤ y.toNat then y else x
  | .and => x &&& y
  | .or => x ||| y
  | .xor => x ^^^ y
  | .andn => x &&& ~~~y
  | .shl => if n ≤ y.toNat then 0 else x <<< y.toNat
  | .shr => if n ≤ y.toNat then 0 else x >>> y.toNat
  | .sar => if n ≤ y.toNat then (if x.msb then BitVec.allOnes n else 0) else x.sshiftRight y.toNat
  | .rotl => x.rotateLeft (y.toNat % n)
  | .adds => satS n (x.toInt + y.toInt)
  | .subs => satS n (x.toInt - y.toInt)

/-- R149 on a 32-bit lane word of the packed or plain layouts (R83). -/
def iopWord (o : IOp) (ty : IntTy) (x y z : W32) : W32 :=
  let e (n j : Nat) : BitVec n := iop n o (x.extractLsb' (n * j) n) (y.extractLsb' (n * j) n) (z.extractLsb' (n * j) n)
  match ty with
  | .h16 => e 16 1 ++ e 16 0
  | .b8 => e 8 3 ++ e 8 2 ++ e 8 1 ++ e 8 0
  | _ => iop 32 o x y z

/-- Integer comparison (R121). -/
def icmp (n : Nat) (cc : Nat) (x y : BitVec n) : Bool :=
  match cc with
  | 0 => x == y
  | 1 => x != y
  | 2 => decide (x.toInt < y.toInt)
  | 3 => decide (x.toInt ≤ y.toInt)
  | 4 => decide (y.toInt < x.toInt)
  | 5 => decide (y.toInt ≤ x.toInt)
  | 6 => x.msb
  | _ => !x.msb

/-- The condition of `brs` (R175). -/
def brCond (cc : BrCc) (x : W64) : Bool :=
  match cc with
  | .eqz => x == 0
  | .nez => x != 0
  | .ltz => decide (x.toInt < 0)
  | .lez => decide (x.toInt ≤ 0)
  | .gtz => decide (0 < x.toInt)
  | .gez => decide (0 ≤ x.toInt)

/-- Leading zero bits (R157): 32 for 0. -/
def clz32 (x : W32) : W32 := if x = 0 then 32 else BitVec.ofNat 32 (31 - x.toNat.log2)
/-- The number of 1 bits (R157). -/
def popc (x : W32) : W32 := BitVec.ofNat 32 ((List.range 32).filter x.getLsbD).length
/-- Bit i of the result is bit 31 − i (R157). -/
def brev (x : W32) : W32 := BitVec.ofFnLE (fun i : Fin 32 => x.getLsbD (31 - i.val))
/-- The absolute value, wrapping (R157). -/
def iabs {n : Nat} (x : BitVec n) : BitVec n := if x.msb then 0 - x else x

/-- pos, len and m of R164. -/
def bfPos (b : W32) : Nat := b.toNat % 32
/-- The effective length of R164. -/
def bfLen (b : W32) : Nat := min (b.toNat / 256 % 32 + 1) (32 - bfPos b)
/-- `bfx.z` (R164). -/
def bfxZ (a b : W32) : W32 := BitVec.ofNat 32 (a.toNat / 2 ^ bfPos b % 2 ^ bfLen b)
/-- `bfx.s` (R164). -/
def bfxS (a b : W32) : W32 := ((a.extractLsb' (bfPos b) (bfLen b)).signExtend 32)
/-- `bfi` (R164). -/
def bfi (d a b : W32) : W32 :=
  let m : W32 := BitVec.ofNat 32 ((2 ^ bfLen b - 1) * 2 ^ bfPos b)
  (d &&& ~~~m) ||| ((a <<< bfPos b) &&& m)

/-- The operations of `sop` (R169), on 64-bit values. -/
inductive SOp where
  | add | sub | mul | mulh | div | divz | rem | and | or | xor | shl | shr | sar | min | max | minz | maxz | mov | slt | sltz | seq
  deriving DecidableEq, Repr

/-- A Bool as a scalar. -/
def b64 (b : Bool) : W64 := if b then 1 else 0

/-- The result of `sop` (R84, R169). -/
def sop (o : SOp) (x y : W64) : W64 :=
  match o with
  | .add => x + y
  | .sub => x - y
  | .mul => x * y
  | .mulh => iop 64 .mulhS x y 0
  | .div => if y = 0 then 0 else BitVec.ofInt 64 (x.toInt.tdiv y.toInt)
  | .divz => if y = 0 then 0 else BitVec.ofNat 64 (x.toNat / y.toNat)
  | .rem => if y = 0 then x else BitVec.ofInt 64 (x.toInt.tmod y.toInt)
  | .and => x &&& y
  | .or => x ||| y
  | .xor => x ^^^ y
  | .shl => iop 64 .shl x y 0
  | .shr => iop 64 .shr x y 0
  | .sar => iop 64 .sar x y 0
  | .min => iop 64 .minS x y 0
  | .max => iop 64 .maxS x y 0
  | .minz => iop 64 .minZ x y 0
  | .maxz => iop 64 .maxZ x y 0
  | .mov => x
  | .slt => b64 (decide (x.toInt < y.toInt))
  | .sltz => b64 (decide (x.toNat < y.toNat))
  | .seq => b64 (x == y)

/-- `saddi` (R170). -/
def saddi (x : W64) (imm : BitVec 11) : W64 := x + imm.signExtend 64
/-- `sli` (R171). -/
def sli (imm : BitVec 16) : W64 := imm.signExtend 64
/-- `slh` (R171). -/
def slh (x : W64) (imm : BitVec 16) : W64 := (imm ++ x.extractLsb' 0 16).signExtend 64
/-- `slx` (R171). -/
def slx (x : W64) (imm : BitVec 16) : W64 := (imm.signExtend 32) ++ x.extractLsb' 0 32

end Sys2Proof.Machine
end

