-- ==== Sys2Proof/Machine/Float.lean ====
section
/-! DEFINITION. IEEE 754 arithmetic as the spec fixes it (R85 to R89, R152 to R160): exact values, one rounding. -/

namespace Sys2Proof.Machine

/-- An exact value: a NaN, an infinity, or (−1)^neg × m × 2^e. -/
inductive FV where
  | nan
  | inf (neg : Bool)
  | fin (neg : Bool) (m : Nat) (e : Int)
  deriving DecidableEq, Repr

/-- A binary interchange format (R85): exponent width and fraction width. -/
structure FFmt where
  ew : Nat
  mw : Nat
  deriving DecidableEq, Repr

/-- f32 (R85). -/
def fmt32 : FFmt := ⟨8, 23⟩
/-- f16 (R85). -/
def fmt16 : FFmt := ⟨5, 10⟩
/-- bf16 (R85). -/
def fmtB16 : FFmt := ⟨8, 7⟩
/-- f64 (R85). -/
def fmt64 : FFmt := ⟨11, 52⟩

/-- The bias of a format. -/
def FFmt.bias (f : FFmt) : Nat := 2 ^ (f.ew - 1) - 1
/-- The width of a format. -/
def FFmt.width (f : FFmt) : Nat := 1 + f.ew + f.mw
/-- The sign bit in place. -/
def FFmt.sgn (f : FFmt) (neg : Bool) : Nat := if neg then 2 ^ (f.ew + f.mw) else 0
/-- The canonical NaN (R85). -/
def FFmt.cnan (f : FFmt) : Nat := (2 ^ f.ew - 1) * 2 ^ f.mw + 2 ^ (f.mw - 1)
/-- An infinity. -/
def FFmt.infc (f : FFmt) (neg : Bool) : Nat := f.sgn neg + (2 ^ f.ew - 1) * 2 ^ f.mw
/-- The exponent of the least subnormal. -/
def FFmt.qmin (f : FFmt) : Int := 1 - (f.bias : Int) - f.mw

/-- The value of a code. -/
def FFmt.val (f : FFmt) (x : Nat) : FV :=
  let neg := x / 2 ^ (f.ew + f.mw) % 2 == 1
  let e := x / 2 ^ f.mw % 2 ^ f.ew
  let m := x % 2 ^ f.mw
  if e = 2 ^ f.ew - 1 then (if m = 0 then .inf neg else .nan)
  else if e = 0 then .fin neg m f.qmin
  else .fin neg (m + 2 ^ f.mw) (f.qmin + (e - 1 : Nat))

/-- m × 2^e rounded to a multiple of 2^q, in units of 2^q, and whether it was inexact. `sticky` stands for a positive rest below the last bit of m. -/
def roundAt (mode : Rnd) (neg : Bool) (m : Nat) (e q : Int) (sticky : Bool) : Nat :=
  if q ≤ e then
    let x := m * 2 ^ (e - q).toNat
    if sticky && ((mode == .rm && neg) || (mode == .rp && !neg)) then x + 1 else x
  else
    let s := (q - e).toNat
    let x := m / 2 ^ s
    let r := m % 2 ^ s
    let half := 2 ^ (s - 1)
    let inexact := r != 0 || sticky
    let up := match mode with
      | .rn => decide (half < r) || (r == half && (sticky || x % 2 == 1))
      | .rz => false
      | .rm => neg && inexact
      | .rp => !neg && inexact
    if up then x + 1 else x

/-- What an overflow gives under a mode (R89). -/
def FFmt.over (f : FFmt) (mode : Rnd) (neg : Bool) : Nat :=
  let big := f.infc neg - 1
  match mode with
  | .rn => f.infc neg
  | .rz => big
  | .rm => if neg then f.infc neg else big
  | .rp => if neg then big else f.infc neg

/-- A non-zero magnitude rounded to the format (R86, R89). -/
def FFmt.roundMag (f : FFmt) (mode : Rnd) (neg : Bool) (m : Nat) (e : Int) (sticky : Bool) : Nat :=
  let top : Int := (m.log2 : Int) + e
  let q := max (top - f.mw) f.qmin
  let x := roundAt mode neg m e q sticky
  let code := (q - f.qmin).toNat * 2 ^ f.mw + x
  if (2 ^ f.ew - 1) * 2 ^ f.mw ≤ code then f.over mode neg else f.sgn neg + code

/-- An exact value rounded to the format. -/
def FFmt.round (f : FFmt) (mode : Rnd) : FV → Nat
  | .nan => f.cnan
  | .inf n => f.infc n
  | .fin n m e => if m = 0 then f.sgn n else f.roundMag mode n m e false

/-- Change of sign. -/
def FV.negate : FV → FV
  | .nan => .nan
  | .inf n => .inf (!n)
  | .fin n m e => .fin (!n) m e

/-- The exact product (R86): an infinity times zero is a NaN. -/
def FV.mul : FV → FV → FV
  | .nan, _ => .nan
  | _, .nan => .nan
  | .inf a, .inf b => .inf (a != b)
  | .inf a, .fin b m _ => if m = 0 then .nan else .inf (a != b)
  | .fin a m _, .inf b => if m = 0 then .nan else .inf (a != b)
  | .fin a m e, .fin b k d => .fin (a != b) (m * k) (e + d)

/-- The signed multiple of 2^q that a finite value is. -/
def FV.scaled (q : Int) : FV → Int
  | .fin n m e => (if n then -1 else 1) * ((m * 2 ^ (e - q).toNat : Nat) : Int)
  | _ => 0

/-- The exponent of a finite value. -/
def FV.exp : FV → Int
  | .fin _ _ e => e
  | _ => 0

/-- A value is a NaN. -/
def FV.isNan : FV → Bool
  | .nan => true
  | _ => false
/-- A value is an infinity of a sign. -/
def FV.isInf (neg : Bool) : FV → Bool
  | .inf n => n == neg
  | _ => false
/-- A value is a negative zero. -/
def FV.isNegZero : FV → Bool
  | .fin true 0 _ => true
  | _ => false
/-- A value is a zero of either sign. -/
def FV.isZero : FV → Bool
  | .fin _ 0 _ => true
  | _ => false

/-- The exact sum of terms (R86, R101): an exact zero sum is +0 unless every term is −0. -/
def FV.sum (ts : List FV) : FV :=
  if ts.any FV.isNan || (ts.any (FV.isInf true) && ts.any (FV.isInf false)) then .nan
  else if ts.any (FV.isInf true) then .inf true
  else if ts.any (FV.isInf false) then .inf false
  else
    let q := ts.foldl (fun a t => min a t.exp) (match ts with | t :: _ => t.exp | [] => 0)
    let x : Int := ts.foldl (fun a t => a + t.scaled q) (0 : Int)
    if x = 0 then .fin (!ts.isEmpty && ts.all FV.isNegZero) 0 0 else .fin (decide (x < 0)) x.natAbs q

/-- The order of two values that are no NaN; −0 equals +0. -/
def FV.lt : FV → FV → Bool
  | .nan, _ => false
  | _, .nan => false
  | .inf a, .inf b => a && !b
  | .inf a, .fin _ _ _ => a
  | .fin _ _ _, .inf b => !b
  | x, y => let q := min x.exp y.exp; decide (x.scaled q < y.scaled q)

/-- Equality of two values that are no NaN; −0 equals +0. -/
def FV.eq (x y : FV) : Bool := !x.isNan && !y.isNan && !FV.lt x y && !FV.lt y x

/-- Float comparison (R87, R121). -/
def fcmp (cc : Nat) (x y : FV) : Bool :=
  match cc with
  | 0 => FV.eq x y
  | 1 => !FV.eq x y
  | 2 => FV.lt x y
  | 3 => FV.lt x y || FV.eq x y
  | 4 => FV.lt y x
  | 5 => FV.lt y x || FV.eq x y
  | 6 => x.isNan || y.isNan
  | _ => !(x.isNan || y.isNan)

/-- The value has a minus sign. -/
def FV.neg : FV → Bool
  | .nan => false
  | .inf n => n
  | .fin n _ _ => n

/-- `fmin` and `fmax` on codes (R87): the other operand for one NaN, the canonical NaN for two, −0 below +0. -/
def FFmt.minmax (f : FFmt) (mx : Bool) (x y : Nat) : Nat :=
  let a := f.val x
  let b := f.val y
  if a.isNan then (if b.isNan then f.cnan else y)
  else if b.isNan then x
  else
    let xLess := FV.lt a b || (FV.eq a b && a.neg && !b.neg)
    if mx then (if xLess then y else x) else (if xLess then x else if FV.lt b a || (FV.eq a b && b.neg) then y else x)

/-- The six operations of R152. -/
inductive FOp2 where | add | sub | mul | fma | min | max
  deriving DecidableEq, Repr

/-- The element result of R152 on codes. -/
def FFmt.op (f : FFmt) (o : FOp2) (x y z : Nat) : Nat :=
  match o with
  | .add => f.round .rn (FV.sum [f.val x, f.val y])
  | .sub => f.round .rn (FV.sum [f.val x, (f.val y).negate])
  | .mul => f.round .rn ((f.val x).mul (f.val y))
  | .fma => f.round .rn (FV.sum [(f.val x).mul (f.val y), f.val z])
  | .min => f.minmax false x y
  | .max => f.minmax true x y

/-- R152 on a 32-bit lane word of the plain or packed types. -/
def fopWord (o : FOp2) (ty : FloTy) (x y z : W32) : W32 :=
  let e (f : FFmt) (j : Nat) : BitVec 16 :=
    BitVec.ofNat 16 (f.op o (x.extractLsb' (16 * j) 16).toNat (y.extractLsb' (16 * j) 16).toNat (z.extractLsb' (16 * j) 16).toNat)
  match ty with
  | .f16 => e fmt16 1 ++ e fmt16 0
  | .bf16 => e fmtB16 1 ++ e fmtB16 0
  | _ => BitVec.ofNat 32 (fmt32.op o x.toNat y.toNat z.toNat)

/-- R152 on an f64 pair. -/
def fopPair (o : FOp2) (x y z : W64) : W64 := BitVec.ofNat 64 (fmt64.op o x.toNat y.toNat z.toNat)

/-- f32 addition. -/
def fadd32 (x y : W32) : W32 := BitVec.ofNat 32 (fmt32.op .add x.toNat y.toNat 0)

/-- `fdot2` (R101, R153). -/
def fdot2 (bf : Bool) (x y z : W32) : W32 :=
  let f := if bf then fmtB16 else fmt16
  let p (j : Nat) : FV := (f.val (x.extractLsb' (16 * j) 16).toNat).mul (f.val (y.extractLsb' (16 * j) 16).toNat)
  BitVec.ofNat 32 (fmt32.round .rn (FV.sum [fmt32.val z.toNat, p 0, p 1]))

/-- The comparison of `setp` on 32-bit rows (R154). -/
def cmpRow (ty : SetTy) (cc : Nat) (x y : W32) : Bool :=
  match ty with
  | .i32 => icmp 32 cc x y
  | _ => fcmp cc (fmt32.val x.toNat) (fmt32.val y.toNat)
/-- The comparison of `setp` on pairs (R154). -/
def cmpPair (ty : SetTy) (cc : Nat) (x y : W64) : Bool :=
  match ty with
  | .i64 => icmp 64 cc x y
  | _ => fcmp cc (fmt64.val x.toNat) (fmt64.val y.toNat)

/-- `frnd` (R157): rounded to an integral f32. -/
def frnd (mode : Rnd) (x : W32) : W32 :=
  match fmt32.val x.toNat with
  | .nan => BitVec.ofNat 32 fmt32.cnan
  | .inf _ => x
  | .fin n m e => if 0 ≤ e then x
    else
      let r := roundAt mode n m e 0 false
      if r = 0 then BitVec.ofNat 32 (fmt32.sgn n) else BitVec.ofNat 32 (fmt32.roundMag .rn n r 0 false)

/-- `fclass` (R158). -/
def fclass (x : W32) : W32 :=
  let neg := x.msb
  let e := x.toNat / 2 ^ 23 % 256
  let m := x.toNat % 2 ^ 23
  let i : Nat :=
    if e = 255 then (if m = 0 then (if neg then 2 else 9) else if m < 2 ^ 22 then 0 else 1)
    else if e = 0 then (if m = 0 then (if neg then 5 else 6) else (if neg then 4 else 7))
    else (if neg then 3 else 8)
  BitVec.ofNat 32 (2 ^ i)

/-- The integer square root by its bits, from bit k − 1 down. -/
def isqrtBits (n : Nat) : Nat → Nat → Nat
  | 0, r => r
  | k + 1, r => let r' := r + 2 ^ k; isqrtBits n k (if r' * r' ≤ n then r' else r)
/-- The integer square root. -/
def isqrt (n : Nat) : Nat := isqrtBits n (n.log2 / 2 + 1) 0

/-- `fsqrt` (R88): correctly rounded. -/
def fsqrt (x : W32) : W32 :=
  match fmt32.val x.toNat with
  | .nan => BitVec.ofNat 32 fmt32.cnan
  | .inf n => if n then BitVec.ofNat 32 fmt32.cnan else x
  | .fin n m e =>
    if m = 0 then x
    else if n then BitVec.ofNat 32 fmt32.cnan
    else
      let e' : Int := if e % 2 = 0 then e - 64 else e - 63
      let k := m * 2 ^ (e - e').toNat
      let r := isqrt k
      BitVec.ofNat 32 (fmt32.roundMag .rn false r (e' / 2) (r * r != k))

/-- c is finite and lies within 2 ulp of the value x whose magnitude lies between those of v and of v with its last bit raised, ends left out (R88); an ulp
is the spacing of f32 codes at x. -/
def within2 (v c : FV) : Bool :=
  match v, c with
  | .fin n m e, .fin n' m' e' =>
    let q := max ((m.log2 : Int) + e - 23) (-149)
    let b := min q (min e e')
    let at_ (m : Nat) (e : Int) : Int := ((m * 2 ^ (e - b).toNat : Nat) : Int)
    let two : Int := ((2 * 2 ^ (q - b).toNat : Nat) : Int)
    let c := if n' == n then at_ m' e' else -(at_ m' e')
    decide (c - two ≤ at_ m e) && decide (at_ m e < c + two)
  | _, _ => false
/-- An operation's approximate result: the free value where it is within 2 ulp of a finite result, otherwise the nearest code (R88, LOG 5). -/
def approxNear (op : Nat) (x : W32) (v : FV) (near : W32) : W32 :=
  if (fmt32.val near.toNat).isInf false || (fmt32.val near.toNat).isInf true then near
  else if within2 v (fmt32.val (Config.approx op x).toNat) then Config.approx op x else near

/-- The relative error of c against 1 / x is at most 2⁻¹⁴, or its error at most the least subnormal (R88). -/
def rcpOk (x c : FV) : Bool :=
  match x, c with
  | .fin n m e, .fin n' m' e' =>
    let q := min (e + e') (-149 + e)
    let one := if q ≤ 0 then 2 ^ (-q).toNat else 1
    let p := m * m' * 2 ^ (e + e' - min q 0).toNat
    let ulp := m * 2 ^ (-149 + e - min q 0).toNat
    let err := if one ≤ p then p - one else one - p
    n == n' && m' != 0 && (decide (err * 16384 ≤ one) || decide (err ≤ ulp))
  | _, _ => false

/-- `frcp` (R88): exact special values, any result within the bound otherwise (LOG 5). -/
def frcp (x : W32) : W32 :=
  match fmt32.val x.toNat with
  | .nan => BitVec.ofNat 32 fmt32.cnan
  | .inf n => BitVec.ofNat 32 (fmt32.sgn n)
  | .fin n m e =>
    if m = 0 then BitVec.ofNat 32 (fmt32.infc n)
    else
      let k := 2 ^ 80 / m
      let r := BitVec.ofNat 32 (fmt32.roundMag .rn n k (-80 - e) (k * m != 2 ^ 80))
      if (fmt32.val r.toNat).isInf n then r
      else if rcpOk (.fin n m e) (fmt32.val (Config.approx 0 x).toNat) then Config.approx 0 x else r

/-- c² × x lies between (1 − 2⁻¹⁴)² and (1 + 2⁻¹⁴)² (R88). -/
def rsqOk (x c : FV) : Bool :=
  match x, c with
  | .fin _ m e, .fin false k d =>
    let q := e + 2 * d
    let p := m * k * k * 2 ^ 28 * 2 ^ (max q 0).toNat
    let one := 2 ^ (-(min q 0)).toNat
    decide (16383 * 16383 * one ≤ p) && decide (p ≤ 16385 * 16385 * one)
  | _, _ => false

/-- `frsq` (R88). -/
def frsq (x : W32) : W32 :=
  match fmt32.val x.toNat with
  | .nan => BitVec.ofNat 32 fmt32.cnan
  | .inf n => if n then BitVec.ofNat 32 fmt32.cnan else 0
  | .fin n m e =>
    if m = 0 then BitVec.ofNat 32 (fmt32.infc n)
    else if n then BitVec.ofNat 32 fmt32.cnan
    else
      let e' : Int := if e % 2 = 0 then e else e - 1
      let k := 2 ^ 160 / (m * 2 ^ (e - e').toNat)
      let r := BitVec.ofNat 32 (fmt32.roundMag .rn false (isqrt k) (-80 - e' / 2) true)
      if rsqOk (.fin n m e) (fmt32.val (Config.approx 1 x).toNat) then Config.approx 1 x else r

/-- Bits of the fixed point in which `fexp2` computes, and the guard bits that it drops at the end. -/
def exp2Scale : Nat := 320
/-- 2^(2^-i) in that fixed point, for i from 1 to n, the first factor first. -/
def exp2Roots : Nat → Nat → List Nat
  | 0, _ => []
  | n + 1, c => let r := isqrt (c * 2 ^ exp2Scale); r :: exp2Roots n r
/-- The product of the roots whose bits stand in f; bit n − 1 of f belongs to the first root. -/
def exp2Prod : List Nat → Nat → Nat → Nat
  | [], _, acc => acc
  | r :: t, f, acc => exp2Prod t f (if f / 2 ^ t.length % 2 = 1 then acc * r / 2 ^ exp2Scale else acc)

/-- 2^x for a finite x that is no integer, by the bits of x down to 2^-149, to some 220 bits from below. -/
def exp2Val (n : Bool) (m : Nat) (e : Int) : FV :=
  let fx : Int := (if n then -1 else 1) * ((m * 2 ^ (e + 149).toNat : Nat) : Int)
  let i := fx / 2 ^ 149
  if i < -160 then .fin false 0 (-149)
  else if 200 < i then .inf false
  else .fin false (exp2Prod (exp2Roots 149 (2 ^ (exp2Scale + 1))) (fx % 2 ^ 149).toNat (2 ^ exp2Scale) / 2 ^ 96) (i - 224)
/-- The nearest code of a value some of whose bits are lost. -/
def nearCode (x : FV) : W32 :=
  match x with
  | .fin n m e => BitVec.ofNat 32 (fmt32.roundMag .rn n m e true)
  | v => BitVec.ofNat 32 (fmt32.round .rn v)

/-- 2^i for an integer i, which is no more than 300 in magnitude or lies far outside every exponent of f32. -/
def pow2Val (i : Int) : FV := .fin false 1 (max (-400) (min 400 i))

/-- `fexp2` (R88): exact at integers whose result is representable, within 2 ulp elsewhere (LOG 5). -/
def fexp2 (x : W32) : W32 :=
  match fmt32.val x.toNat with
  | .nan => BitVec.ofNat 32 fmt32.cnan
  | .inf n => if n then 0 else x
  | .fin n m e =>
    let a := m * 2 ^ (e + 149).toNat
    if a % 2 ^ 149 = 0 then
      let i : Int := (if n then -1 else 1) * ((a / 2 ^ 149 : Nat) : Int)
      if i < -149 then approxNear 3 x (.fin false 0 (-149)) (BitVec.ofNat 32 (fmt32.round .rn (pow2Val i))) else BitVec.ofNat 32 (fmt32.round .rn (pow2Val i))
    else approxNear 3 x (exp2Val n m e) (nearCode (exp2Val n m e))

/-- Bits of log2 of y / 2^256 for y from 2^256 up to 2^257, n of them. -/
def log2Bits : Nat → Nat → Nat → Nat
  | 0, _, acc => acc
  | n + 1, y, acc =>
    let s := y * y / 2 ^ 256
    if 2 ^ 257 ≤ s then log2Bits n (s / 2) (2 * acc + 1) else log2Bits n s (2 * acc)

/-- `flog2` (R88): exact at powers of two, within 2 ulp elsewhere (LOG 5). -/
def flog2 (x : W32) : W32 :=
  match fmt32.val x.toNat with
  | .nan => BitVec.ofNat 32 fmt32.cnan
  | .inf n => if n then BitVec.ofNat 32 fmt32.cnan else x
  | .fin n m e =>
    if m = 0 then BitVec.ofNat 32 (fmt32.infc true)
    else if n then BitVec.ofNat 32 fmt32.cnan
    else
      let top : Int := (m.log2 : Int) + e
      if m = 2 ^ m.log2 then BitVec.ofNat 32 (fmt32.round .rn (.fin (decide (top < 0)) top.natAbs 0))
      else
        -- the bits below 2^-120 are lost: of a negative value the magnitude is rounded down too
        let v : Int := top * 2 ^ 120 + log2Bits 120 (m * 2 ^ (256 - m.log2)) 0
        let w : FV := if v < 0 then .fin true (v.natAbs - 1) (-120) else .fin false v.natAbs (-120)
        approxNear 4 x w (nearCode w)

/-- A value rounded to an integer by a mode (R89); none for a NaN, and an infinity gives a bound beyond every format. -/
def FV.toInt (mode : Rnd) : FV → Int
  | .nan => 0
  | .inf n => if n then -(2 ^ 80) else 2 ^ 80
  | .fin n m e => (if n then -1 else 1) * (roundAt mode n m e 0 false : Nat)

/-- An integer as a value. -/
def FV.ofInt (x : Int) : FV := .fin (decide (x < 0)) x.natAbs 0

/-- The conversions of R159, on the source row x and its partner y (the second row of a pair): the result row and its partner. -/
def cvt (c : Nat) (mode : Rnd) (x y : W32) : W32 × W32 :=
  let p := join x y
  let one (n : Nat) : W32 × W32 := (BitVec.ofNat 32 n, 0)
  let two (n : Nat) : W32 × W32 := (BitVec.ofNat 32 n, BitVec.ofNat 32 (n / 2 ^ 32))
  let f32 := fmt32.val x.toNat
  let f64 := fmt64.val p.toNat
  match c with
  | 0 => one (fmt32.round mode (.ofInt x.toInt)) | 1 => one (fmt32.round mode (.ofInt x.toNat))
  | 2 => one (fmt32.round mode (.ofInt p.toInt)) | 3 => one (fmt32.round mode (.ofInt p.toNat))
  | 4 => two (fmt64.round mode (.ofInt x.toInt)) | 5 => two (fmt64.round mode (.ofInt x.toNat))
  | 6 => two (fmt64.round mode (.ofInt p.toInt)) | 7 => two (fmt64.round mode (.ofInt p.toNat))
  | 8 => one (satS 32 (f32.toInt mode)).toNat | 9 => one (satZ 32 (f32.toInt mode)).toNat
  | 10 => two (satS 64 (f32.toInt mode)).toNat | 11 => two (satZ 64 (f32.toInt mode)).toNat
  | 12 => one (satS 32 (f64.toInt mode)).toNat | 13 => one (satZ 32 (f64.toInt mode)).toNat
  | 14 => two (satS 64 (f64.toInt mode)).toNat | 15 => two (satZ 64 (f64.toInt mode)).toNat
  | 16 => one (fmt16.round mode f32) | 17 => one (fmtB16.round mode f32)
  | 18 => one (fmt32.round .rn (fmt16.val (x.toNat % 65536))) | 19 => one (fmt32.round .rn (fmtB16.val (x.toNat % 65536)))
  | 20 => one (fmt32.round mode f64) | 21 => two (fmt64.round .rn f32)
  | 22 => one (fmt16.round mode f64) | 23 => two (fmt64.round .rn (fmt16.val (x.toNat % 65536)))
  | 24 => ((satS 16 (f32.toInt mode)).signExtend 32, 0) | 25 => ((satZ 16 (f32.toInt mode)).setWidth 32, 0)
  | 26 => ((satS 8 (f32.toInt mode)).signExtend 32, 0) | 27 => ((satZ 8 (f32.toInt mode)).setWidth 32, 0)
  | 28 => one (fmt16.round mode f32 + 65536 * fmt16.round mode (fmt32.val y.toNat))
  | 29 => one (fmtB16.round mode f32 + 65536 * fmtB16.round mode (fmt32.val y.toNat))
  | 30 => (BitVec.ofNat 32 (fmt32.round .rn (fmt16.val (x.toNat % 65536))), BitVec.ofNat 32 (fmt32.round .rn (fmt16.val (x.toNat / 65536))))
  | 31 => (BitVec.ofNat 32 (fmt32.round .rn (fmtB16.val (x.toNat % 65536))), BitVec.ofNat 32 (fmt32.round .rn (fmtB16.val (x.toNat / 65536))))
  | 32 => (x, if x.msb then BitVec.allOnes 32 else 0) | 33 => (x, 0) | 34 => (x, 0)
  | 35 => ((x.extractLsb' 0 8).signExtend 32, 0) | 36 => ((x.extractLsb' 0 16).signExtend 32, 0)
  | 37 => ((x.extractLsb' 0 8).setWidth 32, 0) | _ => ((x.extractLsb' 0 16).setWidth 32, 0)

/-- The results of R221: new value from the old value and the operands (for `cas`: compare, new). -/
def atomNew (wide : Bool) (o : AtomOp) (x y z : W64) : W64 :=
  let w (f : ∀ n : Nat, BitVec n → BitVec n → BitVec n) : W64 :=
    if wide then f 64 x y else (f 32 (loW x) (loW y)).setWidth 64
  match o with
  | .add => w fun _ a b => a + b
  | .minS => w fun n a b => iop n .minS a b 0
  | .minZ => w fun n a b => iop n .minZ a b 0
  | .maxS => w fun n a b => iop n .maxS a b 0
  | .maxZ => w fun n a b => iop n .maxZ a b 0
  | .and => w fun _ a b => a &&& b
  | .or => w fun _ a b => a ||| b
  | .xor => w fun _ a b => a ^^^ b
  | .xchg => w fun _ _ b => b
  | .cas => if wide then (if x = y then z else x) else if loW x = loW y then (loW z).setWidth 64 else (loW x).setWidth 64
  | .fadd => if wide then fopPair .add x y 0 else (fadd32 (loW x) (loW y)).setWidth 64

end Sys2Proof.Machine
end

