-- ==== Sys2Proof/Machine/Narrow.lean ====
section
/-! DEFINITION. The narrow formats of a format word (R90 to R100, R161 to R163, R257 to R259), the stochastic generator (R104, R105) and
the tree of `redx` and `scan` (R102, R103). -/

namespace Sys2Proof.Machine

/-- The fields of a format word (R90). -/
structure FmtWord where
  raw : Nat
  deriving DecidableEq, Repr

/-- Element width. -/
def FmtWord.w (f : FmtWord) : Nat := f.raw % 8 + 1
/-- Exponent width. -/
def FmtWord.e (f : FmtWord) : Nat := f.raw / 8 % 8
/-- 1 for a signed format. -/
def FmtWord.s (f : FmtWord) : Nat := f.raw / 64 % 2
/-- WIDE. -/
def FmtWord.wide (f : FmtWord) : Bool := f.raw / 128 % 2 == 1
/-- BIAS, two's complement. -/
def FmtWord.bias (f : FmtWord) : Int := (BitVec.ofNat 8 (f.raw / 256)).toInt
/-- SPC. -/
def FmtWord.spc (f : FmtWord) : Nat := f.raw / 65536 % 4
/-- SCL. -/
def FmtWord.scl (f : FmtWord) : Nat := f.raw / 262144 % 4
/-- RND. -/
def FmtWord.rnd (f : FmtWord) : Nat := f.raw / 1048576 % 4
/-- Mantissa width. -/
def FmtWord.m (f : FmtWord) : Nat := f.w - f.s - f.e

/-- A valid narrow word (R91). -/
def FmtWord.valid (f : FmtWord) : Bool :=
  !f.wide && f.raw / 4194304 == 0 && f.rnd != 3 && f.spc != 3 && decide (f.s + f.e ≤ f.w) &&
  (f.e != 0 || f.spc == 0) && (f.spc != 1 || (decide (1 ≤ f.e) && decide (1 ≤ f.m))) && (f.spc != 2 || decide (1 ≤ f.e))
/-- A valid word of R92. -/
def FmtWord.validWide (f : FmtWord) : Bool := f.raw == 0x80 || f.raw == 0x81

/-- The code of the largest finite magnitude (R94), for E ≥ 1. -/
def FmtWord.maxCode (f : FmtWord) : Nat :=
  match f.spc with
  | 0 => 2 ^ (f.e + f.m) - 1
  | 1 => (2 ^ f.e - 1) * 2 ^ f.m - 1
  | _ => 2 ^ (f.e + f.m) - 2

/-- The exponent of the least code step, for E ≥ 1. -/
def FmtWord.qmin (f : FmtWord) : Int := 1 - f.bias - f.m

/-- A signed integer times a power of two. -/
def FV.ofScaled (x e : Int) : FV := .fin (decide (x < 0)) x.natAbs e

/-- NarrowValue (R94). -/
def narrowValue (f : FmtWord) (c : Nat) : FV :=
  if f.e = 0 then
    if f.s = 1 then .ofScaled ((BitVec.ofNat f.w c).toInt) (-f.bias) else .fin false (c % 2 ^ f.w) (-f.bias)
  else
    let neg := f.s == 1 && c / 2 ^ (f.w - 1) % 2 == 1
    let mag := c % 2 ^ (f.e + f.m)
    let e := mag / 2 ^ f.m
    let m := mag % 2 ^ f.m
    if f.spc == 1 && e == 2 ^ f.e - 1 then (if m = 0 then .inf neg else .nan)
    else if f.spc == 2 && mag == 2 ^ (f.e + f.m) - 1 then .nan
    else if e = 0 then .fin neg m f.qmin
    else .fin neg (m + 2 ^ f.m) (f.qmin + (e - 1 : Nat))

/-- The largest finite value (R94). -/
def largestFinite (f : FmtWord) : FV :=
  if f.e = 0 then .fin false (2 ^ (f.w - f.s) - 1) (-f.bias) else narrowValue f f.maxCode

/-- A non-negative magnitude rounded to a multiple of 2^q by RND (R95 step 4, R96), in units of 2^q; `base` is the code of 0 units. A tie goes to the
even code, with no mantissa bit too (LOG 43). -/
def narrowAt (f : FmtWord) (base m : Nat) (e q : Int) (u : W32) : Nat :=
  if q ≤ e then m * 2 ^ (e - q).toNat
  else
    let s := (q - e).toNat
    let x := m / 2 ^ s
    let r := m % 2 ^ s
    match f.rnd with
    | 0 => if decide (2 ^ (s - 1) < r) || (r == 2 ^ (s - 1) && (base + x) % 2 == 1) then x + 1 else x
    | 1 => x
    | _ => if u.toNat < r * 2 ^ 32 / 2 ^ s then x + 1 else x

/-- NarrowRound (R95, R96): the code of w bits. -/
def narrowRound (f : FmtWord) (x : FV) (u : W32) : Nat :=
  let sgn (neg : Bool) : Nat := if neg && f.s == 1 then 2 ^ (f.w - 1) else 0
  match x with
  | .nan =>
    match f.spc with
    | 0 => 0
    | 1 => (2 ^ f.e - 1) * 2 ^ f.m + 2 ^ (f.m - 1)
    | _ => 2 ^ (f.e + f.m) - 1
  | .inf neg =>
    if neg && f.s == 0 then 0
    else if f.e = 0 then (if neg then 2 ^ (f.w - 1) else 2 ^ (f.w - f.s) - 1)
    else if f.spc == 1 then sgn neg + (2 ^ f.e - 1) * 2 ^ f.m
    else sgn neg + f.maxCode
  | .fin neg m e =>
    if neg && f.s == 0 then 0
    else if f.e = 0 then
      let r := narrowAt f 0 m e (-f.bias) u
      if neg then (if r = 0 then 0 else 2 ^ f.w - min r (2 ^ (f.w - 1))) else min r (2 ^ (f.w - f.s) - 1)
    else if m = 0 then sgn neg
    else
      let q := max ((m.log2 : Int) + e - f.m) f.qmin
      let base := (q - f.qmin).toNat * 2 ^ f.m
      let code := base + narrowAt f base m e q u
      if f.maxCode < code then
        (if f.spc == 1 && f.rnd == 0 then sgn neg + (2 ^ f.e - 1) * 2 ^ f.m else sgn neg + f.maxCode)
      else sgn neg + code

/-- ScaleValue (R97). -/
def scaleValue (f : FmtWord) (x : Nat) : FV :=
  match f.scl with
  | 0 => .fin false 1 0
  | 3 => narrowValue ⟨0x00020767⟩ x
  | _ => if x = 255 then .nan else .fin false 1 ((x : Int) - 127)

/-- One step of a generator (R104). -/
def genStep (x : W32) : W32 :=
  let x := x ^^^ (x <<< 13)
  let x := x ^^^ (x >>> 17)
  x ^^^ (x <<< 5)

/-- n steps of a generator. -/
def genSteps : Nat → W32 → W32
  | 0, x => x
  | n + 1, x => genSteps n (genStep x)

/-- The random word of element e in lane L (R105), from the state before the instruction. -/
def genWord (g : W32) (e l : Nat) : W32 := (genSteps (4 * e + l / 16 + 1) g).rotateLeft (2 * (l % 16))

/-- What a write of SEED sets generator j to (R108). -/
def genSeed (seed : W32) (j : Nat) : W32 :=
  let x := seed ^^^ BitVec.ofNat 32 ((j + 1) * 0x9E3779B9)
  if x = 0 then 1 else x

/-- Generator j of a core; until SEED is written, as SEED's reset value sets it (LOG 3). -/
def Core.gen (c : Core) (j : Nat) : W32 := get (genSeed 1 j) c.gens j

/-- `cvtn.pk` in one lane (R161). -/
def packLane (fw : W32) (x : Nat → W32) (u : Nat → W32) : W32 :=
  let f : FmtWord := ⟨fw.toNat⟩
  let c (e : Nat) : Nat := narrowRound f (fmt32.val (x e).toNat) (u e)
  let k := if 5 ≤ f.w then 256 else 16
  BitVec.ofNat 32 (c 0 + k * (c 1 + k * (c 2 + k * c 3)))

/-- `cvtn.unpk`: element e of one lane (R162). -/
def unpackLane (fw x : W32) (e : Nat) : W32 :=
  let f : FmtWord := ⟨fw.toNat⟩
  let k := if 5 ≤ f.w then 8 else 4
  BitVec.ofNat 32 (fmt32.round .rn (narrowValue f (x.toNat / 2 ^ (k * e) % 2 ^ k)))

/-- x ≤ y for finite values. -/
def FV.le (x y : FV) : Bool := !FV.lt y x

/-- The magnitude of a value. -/
def FV.mag : FV → FV
  | .nan => .nan
  | .inf _ => .inf false
  | .fin _ m e => .fin false m e

/-- The first number from i upwards, of n tried, that satisfies p; `d` when none does. -/
def firstFrom (p : Nat → Bool) (d : Nat) : Nat → Nat → Nat
  | 0, _ => d
  | n + 1, i => if p i then i else firstFrom p d n (i + 1)

/-- `cvtn.bscale` in one lane (R163). -/
def bscaleLane (fw : W32) (x : Nat → W32) : W32 :=
  let f : FmtWord := ⟨fw.toNat⟩
  let vs := (List.range 4).map fun e => fmt32.val (x e).toNat
  let big := largestFinite f
  if vs.any fun v => v.isNan || v.isInf true || v.isInf false then (if f.scl = 3 then 0x7F else 255)
  else
    let amax := vs.foldl (fun a v => if FV.lt a v.mag then v.mag else a) (.fin false 0 0)
    if amax.isZero then (if f.scl = 3 then 0x38 else 127)
    else if f.scl = 3 then
      BitVec.ofNat 32 (firstFrom (fun c => FV.le amax ((narrowValue ⟨0x00020767⟩ c).mul big)) 0x7E 126 1)
    else BitVec.ofNat 32 (firstFrom (fun c => FV.le (amax.mul (.fin false 1 (127 - (c : Int)))) big) 254 255 0)

/-- One level of the pairwise tree (R102). -/
def pairUp (f : W32 → W32 → W32) : List (Option W32) → List (Option W32)
  | a :: b :: t => (match a, b with
      | some x, some y => some (f x y)
      | some x, none => some x
      | none, y => y) :: pairUp f t
  | l => l

/-- The tree of R102 over 64 lanes, six levels. -/
def tree (f : W32 → W32 → W32) (xs : List (Option W32)) : Option W32 :=
  ((pairUp f (pairUp f (pairUp f (pairUp f (pairUp f (pairUp f xs)))))).headD none)

/-- Combine of R167. -/
def redFn : RedOp → W32 → W32 → W32
  | .addInt => fun x y => x + y
  | .addF32 => fadd32
  | .minS => fun x y => iop 32 .minS x y 0
  | .maxS => fun x y => iop 32 .maxS x y 0
  | .minF32 => fun x y => fopWord .min .f32 x y 0
  | .maxF32 => fun x y => fopWord .max .f32 x y 0
  | .and => fun x y => x &&& y
  | .or => fun x y => x ||| y

/-- The identity of R103. -/
def redId : RedOp → W32
  | .addInt | .or | .addF32 => 0
  | .minS => 0x7FFFFFFF
  | .maxS => 0x80000000
  | .minF32 => 0x7F800000
  | .maxF32 => 0xFF800000
  | .and => 0xFFFFFFFF

/-- The combination of a row over the lanes of a mask that satisfy `p` (R102, R103). -/
def reduceRow (o : RedOp) (m : Mask) (p : Nat → Bool) (v : Vals) : W32 :=
  (tree (redFn o) ((List.range 64).map fun l => if has m l && p l then some (lane v l) else none)).getD (redId o)

/-- K of a format word in `mx` (R257). -/
def mxK (f : FmtWord) : Nat := if f.wide then 32 else if 5 ≤ f.w then 64 else 128
/-- Blocks of a format word (R257). -/
def mxBlocks (f : FmtWord) : Nat :=
  if f.wide then 1 else if 5 ≤ f.w then (if f.scl ≤ 1 then 2 else 4) else (if f.scl ≤ 1 then 4 else 8)
/-- Scale rows of a format word (R257). -/
def mxScaleRows (f : FmtWord) : Nat :=
  if f.wide || f.scl == 0 then 0 else if 5 ≤ f.w then 1 else mxBlocks f / 4

/-- The value of dense element k held by the rows `row` from its first (R257). -/
def mxElem (f : FmtWord) (row : Nat → W32) (k : Nat) : FV :=
  if f.wide then (if f.raw = 0x80 then fmt16 else fmtB16).val ((row (k / 2)).toNat / 65536 ^ (k % 2) % 65536)
  else if 5 ≤ f.w then narrowValue f ((row (k / 4)).toNat / 256 ^ (k % 4) % 256)
  else narrowValue f ((row (k / 8)).toNat / 16 ^ (k % 8) % 16)

/-- The scale of block c held by the rows `row` from the first scale row (R257). -/
def mxScale (f : FmtWord) (row : Nat → W32) (c : Nat) : FV :=
  if mxScaleRows f = 0 then .fin false 1 0 else scaleValue f ((row (c / 4)).toNat / 256 ^ (c % 4) % 256)

/-- One block added to an accumulator (R98, R99). -/
def mxBlock (acc : W32) (terms : List FV) (sa sb : FV) : W32 :=
  let t := ((FV.sum terms).mul (sa.mul sb))
  if t.isZero && !terms.any FV.isNan && !(fmt32.val acc.toNat).isNan then acc
  else BitVec.ofNat 32 (fmt32.round .rn (FV.sum [fmt32.val acc.toNat, t]))

/-- One accumulator element of `mx` (R98): A rows of lane i, B rows of lane j. -/
def mxDot (f : FmtWord) (a b sa sb : Nat → W32) (acc : W32) : W32 :=
  let n := mxK f / mxBlocks f
  (List.range (mxBlocks f)).foldl (fun acc c =>
    mxBlock acc ((List.range n).map fun k => (mxElem f a (c * n + k)).mul (mxElem f b (c * n + k))) (mxScale f sa c) (mxScale f sb c)) acc

/-- One accumulator element of `mx.sp` (R98, R259): `idx c` is lane i's word of entry c. The absent elements of A are exact zeros, so that an infinity or a
NaN of B that meets one makes the sum a NaN (R98, R99, LOG 100). -/
def mxDotSp (f : FmtWord) (a b sa sb idx : Nat → W32) (acc : W32) : W32 :=
  let n := mxK f / mxBlocks f
  (List.range (mxBlocks f)).foldl (fun acc c =>
    let terms := (List.range (n / 4)).foldr (fun h ts =>
      let g := c * (n / 4) + h
      let x := (idx (g / 8)).toNat / 16 ^ (g % 8) % 16
      let absent := (List.range 4).filter fun k => k != x % 4 && k != x / 4
      (mxElem f a (2 * g)).mul (mxElem f b (4 * g + x % 4)) :: (mxElem f a (2 * g + 1)).mul (mxElem f b (4 * g + x / 4)) ::
        (absent.map fun k => (FV.fin false 0 0).mul (mxElem f b (4 * g + k))) ++ ts) []
    mxBlock acc terms (mxScale f sa c) (mxScale f sb c)) acc

end Sys2Proof.Machine
end

