-- ==== Sys2Proof/Machine/Operands.lean ====
section
/-! DEFINITION. Reading and writing the pieces of the state: groups, frames, rows, slots, scalars, predicates, card fields (R28 to R46,
R112 to R116, R145, R178, R199, R299). -/

namespace Sys2Proof.Machine

/-- The group of a slot key. -/
def State.grp (s : State) (k : Nat) : Group := get {} s.groups k
/-- Replace a group. -/
def State.setGrp (s : State) (k : Nat) (g : Group) : State := { s with groups := put s.groups k g }
/-- A team by its number. -/
def State.team (s : State) (k : Nat) : Team := get {} s.teams k
/-- Replace a team. -/
def State.setTeam (s : State) (k : Nat) (t : Team) : State := { s with teams := put s.teams k t }
/-- A grid that is not there: no lanes, no card. -/
def noGrid : Grid := { vf := 0, num := 0, card := [], bind := [], pool := [], prio := 0, edges := [], home := 0, cmd := none }
/-- A grid by its key, vf · 2^32 + number. -/
def State.grid (s : State) (k : Nat) : Grid := get noGrid s.grids k
/-- Replace a grid. -/
def State.setGrid (s : State) (k : Nat) (g : Grid) : State := { s with grids := put s.grids k g }
/-- A compute core, key 64 · die + core. -/
def State.core (s : State) (k : Nat) : Core := get {} s.cores k
/-- Replace a core. -/
def State.setCore (s : State) (k : Nat) (c : Core) : State := { s with cores := put s.cores k c }
/-- A study core. -/
def State.study (s : State) (k : Nat) : StudyCore := get {} s.studies k
/-- Replace a study core. -/
def State.setStudy (s : State) (k : Nat) (c : StudyCore) : State := { s with studies := put s.studies k c }
/-- A die; 4 is the hub. -/
def State.die (s : State) (k : Nat) : Die := get {} s.dies k
/-- Replace a die. -/
def State.setDie (s : State) (k : Nat) (d : Die) : State := { s with dies := put s.dies k d }
/-- An address space. -/
def State.space (s : State) (k : Nat) : Space := get {} s.spaces k
/-- Replace an address space. -/
def State.setSpace (s : State) (k : Nat) (x : Space) : State := { s with spaces := put s.spaces k x }
/-- A virtual function; 128 is the physical function. -/
def State.vf (s : State) (k : Nat) : Vf := get {} s.vfs k
/-- Replace a virtual function. -/
def State.setVf (s : State) (k : Nat) (x : Vf) : State := { s with vfs := put s.vfs k x }
/-- A partition. -/
def State.part (s : State) (k : Nat) : Part := get {} s.parts k
/-- Replace a partition. -/
def State.setPart (s : State) (k : Nat) (x : Part) : State := { s with parts := put s.parts k x }

/-- The core key of a group key. -/
def coreOf (k : Nat) : Nat := k / 128
/-- The die of a core key. -/
def dieOf (c : Nat) : Nat := c / 64
/-- The slot of a group key. -/
def slotOf (k : Nat) : Nat := k % 128

/-- The frame on top (R178). -/
def Group.top (g : Group) : Frame := g.frames.headD {}
/-- Replace the frame on top. -/
def Group.setTop (g : Group) (f : Frame) : Group := { g with frames := f :: g.frames.tail }
/-- %fdepth (R41). -/
def Group.fdepth (g : Group) : Nat := g.frames.length - 1
/-- The frame of a depth. -/
def Group.frameAt (g : Group) (d : Nat) : Frame := g.frames.getD (g.fdepth - d) {}
/-- Replace the frame of a depth. -/
def Group.setFrameAt (g : Group) (d : Nat) (f : Frame) : Group := { g with frames := g.frames.set (g.fdepth - d) f }

/-- The row that row r of the frame of depth d is: an argument row is a row of the caller, the same physical row (R141, R181). -/
def Group.ownerRow (g : Group) : Nat → Nat → Nat × Nat
  | 0, r => (0, r)
  | d + 1, r => if r < (g.frameAt (d + 1)).k then g.ownerRow d ((g.frameAt d).nv - (g.frameAt (d + 1)).k + r) else (d + 1, r)

/-- Lanes that wait for something of their own (R39). -/
def Group.waiting (g : Group) : Mask := g.lanes.waits.foldl (fun a w => a ||| w.2) 0
/-- Lanes of the top frame that have not finished. -/
def Group.running (g : Group) : Mask := g.top.lanes &&& g.lanes.present &&& ~~~ g.lanes.fin
/-- Eligible lanes (R39, R41): in the top frame, not finished, not waiting, the group neither parked nor stalled nor moving. -/
def Group.eligible (g : Group) : Mask :=
  if g.live && g.park.isNone && g.stall.isNone && (g.study.phase == 0 || g.study.phase == 2) then g.running &&& ~~~ g.waiting else 0
/-- The smallest program counter of an eligible lane (R40). -/
def Group.issuePc (g : Group) : W64 :=
  (lanesOf g.eligible).foldl (fun a l => if (pcOf g.lanes.pc l).toNat < a.toNat then pcOf g.lanes.pc l else a)
    (pcOf g.lanes.pc (lowestOf g.eligible))
/-- The issue mask (R40). -/
def Group.issueMask (g : Group) : Mask := maskOf fun l => has g.eligible l && pcOf g.lanes.pc l == g.issuePc

/-- What an instruction sees of the group that issues it. -/
structure Ctx where
  key : Nat
  g : Group
  pc : W64
  mask : Mask

/-- A group as an instruction that it replays sees it: with the operands captured at its issue (R426, R445). -/
def Group.captured (g : Group) (r : Replay) : Group :=
  { g.setTop { g.top with v := r.top.v, m := r.top.m, sc := r.top.sc } with
    regs := { g.regs with gs := r.regs.gs, p := r.regs.p, slots := r.regs.slots, valid := r.regs.valid } }

/-- The context of the next issue of group `k`; none when no lane could issue. An instruction to be replayed comes first (R445). -/
def State.ctxOf (s : State) (k : Nat) : Option Ctx :=
  let g := s.grp k
  if g.eligible = 0 then none
  else match g.replay with
  | some r => some { key := k, g := g.captured r, pc := r.pc, mask := r.mask }
  | none => some { key := k, g := g, pc := g.issuePc, mask := g.issueMask }
/-- The context of the group whose turn it is. -/
def State.ctx (s : State) : Option Ctx := s.ctxOf s.cur

/-- Predicate p in all lanes. -/
def Group.pred (g : Group) (p : PReg) : Mask := get 0 g.regs.p p.val
/-- Write predicate p in the lanes of `m`. -/
def Group.setPred (g : Group) (p : PReg) (m v : Mask) : Group :=
  { g with regs := { g.regs with p := put g.regs.p p.val ((v &&& m) ||| (g.pred p &&& ~~~ m)) } }
/-- The lanes in which a guard holds (R113, R114). -/
def Group.guardMask (g : Group) : Guard → Mask
  | none => BitVec.allOnes 64
  | some p => g.pred p

/-- Row r of the top frame (R112). -/
def Group.row (g : Group) (r : Nat) : Row := get {} g.top.v r
/-- m row r of the top frame. -/
def Group.mrow (g : Group) (r : Nat) : Row := get {} g.top.m r
/-- The value of a source: a row or a slot (R112). -/
def Group.src (g : Group) : VSrc → Vals
  | .row r => (g.row r.val).w
  | .slot b => get (Vector.replicate 64 0) g.regs.slots b.val
/-- The second half of a pair source (R112). -/
def srcNext : VSrc → Nat → VSrc
  | .row r, n => .row (Fin.ofNat 60 (r.val + n))
  | .slot b, n => .slot (Fin.ofNat 4 (b.val + n))
/-- Row `n` places after a source. -/
def Group.srcAt (g : Group) (v : VSrc) (n : Nat) : Vals := g.src (srcNext v n)
/-- A pair in lane L (R145). -/
def Group.pairAt (g : Group) (v : VSrc) (l : Nat) : W64 := join (lane (g.src v) l) (lane (g.srcAt v 1) l)
/-- Scalar S(s) (R146). -/
def Group.sreg (g : Group) (r : Nat) : Sc := if r < 16 then get {} g.top.sc r else get {} g.regs.gs r
/-- The value of a scalar. -/
def Group.s (g : Group) (r : SReg) : W64 := (g.sreg r.val).v
/-- Write a scalar register. -/
def Group.setSc (g : Group) (r : Nat) (x : Sc) : Group :=
  if r < 16 then g.setTop { g.top with sc := put g.top.sc r x } else { g with regs := { g.regs with gs := put g.regs.gs r x } }
/-- Write the value of a scalar; a whole write clears its poison (R438). -/
def Group.setS (g : Group) (r : SReg) (v : W64) : Group := g.setSc r.val ⟨v, false⟩
/-- Write a scalar of the frame of depth d, or a group scalar. -/
def Group.setScAt (g : Group) (d r : Nat) (x : Sc) : Group :=
  if r < 16 then g.setFrameAt d { g.frameAt d with sc := put (g.frameAt d).sc r x }
  else { g with regs := { g.regs with gs := put g.regs.gs r x } }

/-- A frame with row r written in the lanes of `m`; whole lane words clear their poison (R438). -/
def Frame.setRow (f : Frame) (r : Nat) (m : Mask) (v : Vals) : Frame :=
  let o := get {} f.v r
  { f with v := put f.v r ⟨blend m v o.w, o.px &&& ~~~ m⟩ }
/-- A frame with m row r written in the lanes of `m`. -/
def Frame.setMRow (f : Frame) (r : Nat) (m : Mask) (v : Vals) : Frame :=
  let o := get {} f.m r
  { f with m := put f.m r ⟨blend m v o.w, o.px &&& ~~~ m⟩ }
/-- A frame with rows landing with a poison mark per lane. -/
def Frame.landRow (f : Frame) (r : Nat) (m : Mask) (v : Vals) (px : Mask) : Frame :=
  let o := get {} f.v r
  { f with v := put f.v r ⟨blend m v o.w, (o.px &&& ~~~ m) ||| (px &&& m)⟩ }
/-- The same for an m row. -/
def Frame.landMRow (f : Frame) (r : Nat) (m : Mask) (v : Vals) (px : Mask) : Frame :=
  let o := get {} f.m r
  { f with m := put f.m r ⟨blend m v o.w, (o.px &&& ~~~ m) ||| (px &&& m)⟩ }

/-- Write a row of the top frame (R144). -/
def Group.setRow (g : Group) (r : Nat) (m : Mask) (v : Vals) : Group := g.setTop (g.top.setRow r m v)
/-- Write an m row of the top frame. -/
def Group.setMRow (g : Group) (r : Nat) (m : Mask) (v : Vals) : Group := g.setTop (g.top.setMRow r m v)
/-- Write a bypass slot in the lanes of `m` and make it valid (R116). -/
def Group.setSlot (g : Group) (b : Nat) (m : Mask) (v : Vals) : Group :=
  { g with regs := { g.regs with
      slots := put g.regs.slots b (blend m v (get (Vector.replicate 64 0) g.regs.slots b)),
      valid := g.regs.valid ||| BitVec.ofNat 4 (2 ^ b) } }
/-- Invalidate all four slots and restart the count (R116). -/
def Group.invalidate (g : Group) : Group := { g with regs := { g.regs with valid := 0, count := 0 } }
/-- An ordinary issue counts towards the sixteen of R116. -/
def Group.countIssue (g : Group) : Group :=
  if 15 ≤ g.regs.count then g.invalidate else { g with regs := { g.regs with count := g.regs.count + 1 } }
/-- The lanes of `m` continue at `f L`. -/
def Group.setPc (g : Group) (m : Mask) (f : Nat → W64) : Group := { g with lanes := { g.lanes with pc := setPcs m f g.lanes.pc } }
/-- The lanes of `m` wait. -/
def Group.addWait (g : Group) (m : Mask) (w : Wait) : Group := { g with lanes := { g.lanes with waits := g.lanes.waits ++ [(w, m)] } }
/-- End the waits that satisfy `p`. -/
def Group.endWaits (g : Group) (p : Wait → Bool) : Group :=
  { g with lanes := { g.lanes with waits := g.lanes.waits.filter (fun w => !p w.1) } }
/-- Take lanes out of the waits that satisfy `p`. -/
def Group.endWaitsOf (g : Group) (m : Mask) (p : Wait → Bool) : Group :=
  { g with lanes := { g.lanes with waits := (g.lanes.waits.map fun w => if p w.1 then (w.1, w.2 &&& ~~~ m) else w).filter fun w => w.2 != 0 } }
/-- End one wait of some lanes. -/
def Group.endOne (g : Group) (w : Wait × Mask) : Group := { g with lanes := { g.lanes with waits := g.lanes.waits.erase w } }
/-- The lanes whose waits satisfy `p`. -/
def Group.waitMask (g : Group) (p : Wait → Bool) : Mask := g.lanes.waits.foldl (fun a w => if p w.1 then a ||| w.2 else a) 0

/-- Byte `i` of a card. -/
def cardByte (c : List Byte) (i : Nat) : Nat := (c.getD i 0).toNat
/-- An attribute bit of a launch card (R299). -/
def Grid.attr (g : Grid) (b : Nat) : Bool := cardByte g.card 1 / 2 ^ b % 2 == 1
/-- GUARDED. -/
def Grid.guarded (g : Grid) : Bool := g.attr 0
/-- RECORDABLE. -/
def Grid.recordable (g : Grid) : Bool := g.attr 1
/-- The gang size of a card, 0 for none. -/
def Grid.gang (g : Grid) : Nat := cardByte g.card 2
/-- FUSED with gangs (R70). -/
def Grid.fused (g : Grid) : Bool := g.attr 2 && decide (0 < g.gang)
/-- Scratchpad bytes per team (R299). -/
def Grid.scratch (g : Grid) : Nat := fieldAt g.card 20 4
/-- Parlour bytes (R18, R299). -/
def Grid.parlour (g : Grid) : Nat := cardByte g.card 5 * 65536
/-- Semaphores per team. -/
def Grid.nsem (g : Grid) : Nat := cardByte g.card 6
/-- Grid dimensions (R299). -/
def Grid.dim (g : Grid) (i : Nat) : Nat := fieldAt g.card (8 + 4 * i) 4 + 1
/-- Number of teams (R34). -/
def Grid.teams (g : Grid) : Nat := g.dim 0 * g.dim 1 * g.dim 2
/-- Groups, nv and nm16 of a role (R299). -/
def Grid.roleGroups (g : Grid) (r : Nat) : Nat := cardByte g.card (48 + 4 * r)
/-- nv of a role's entry frame. -/
def Grid.roleNv (g : Grid) (r : Nat) : Nat := cardByte g.card (49 + 4 * r)
/-- nm16 of a role's entry frame. -/
def Grid.roleNm (g : Grid) (r : Nat) : Nat := cardByte g.card (50 + 4 * r)
/-- Declared groups of a team (R29). -/
def Grid.ngroup (g : Grid) : Nat := (List.range 4).foldl (fun a r => a + g.roleGroups r) 0
/-- The role of group n (R30). -/
def Grid.roleOf (g : Grid) (n : Nat) : Nat :=
  if n < g.roleGroups 0 then 0 else if n < g.roleGroups 0 + g.roleGroups 1 then 1
  else if n < g.roleGroups 0 + g.roleGroups 1 + g.roleGroups 2 then 2 else 3
/-- The die mask of a card. -/
def Grid.dies (g : Grid) : Nat := cardByte g.card 4 % 16
/-- A die belongs to a grid's mask; an offline die belongs to none (R470). -/
def State.inDies (s : State) (g : Grid) (d : Nat) : Bool := g.dies / 2 ^ d % 2 == 1 && (s.die d).online
/-- The dies that hold live teams of a grid. -/
def State.gridDies (s : State) (k : Nat) : List Nat := (List.range 4).filter fun d => s.teams.any fun e => e.2.grid == k && e.2.live && dieOf e.2.core == d
/-- A window is bound (R300). -/
def Grid.winBound (g : Grid) (w : Nat) : Bool := fieldAt g.card 72 2 / 2 ^ w % 2 == 1
/-- Base of a window. -/
def Grid.winBase (g : Grid) (w : Nat) : Nat := fieldAt g.bind (16 * w) 8
/-- Size of a window. -/
def Grid.winSize (g : Grid) (w : Nat) : Nat := fieldAt g.bind (16 * w + 8) 8
/-- A pantry region is bound. -/
def Grid.panBound (g : Grid) (n : Nat) : Bool := fieldAt g.card 74 2 / 2 ^ n % 2 == 1
/-- Start of a bound pantry region. -/
def Grid.panBase (g : Grid) (n : Nat) : Nat := fieldAt g.bind (256 + 8 * n) 8
/-- Pool count (R180). -/
def Grid.poolCount (g : Grid) : Nat := fieldAt g.card 40 2
/-- A pool entry's bytes. -/
def Grid.poolEntry (g : Grid) (e : Nat) : List Byte := g.pool.getD e []

/-- The grid of a group. -/
def State.gridOf (s : State) (g : Group) : Grid := s.grid g.grid
/-- The address space of a virtual function, if bound (R79). -/
def State.asnOf (s : State) (vf : Nat) : Option Nat := if vf = 128 then some 128 else (s.vf vf).asn
/-- Semaphore k of a team (R228, R309). -/
def State.sem (s : State) (t : Team) (k : Nat) : W64 := get 0 (s.core t.core).sems (t.semBase + k)
/-- Write semaphore k of a team. -/
def State.setSem (s : State) (t : Team) (k : Nat) (v : W64) : State :=
  s.setCore t.core { s.core t.core with sems := put (s.core t.core).sems (t.semBase + k) v }

/-- The parlour of a grid on a die. -/
def State.parlour (s : State) (g d : Nat) : Mem :=
  match s.mem.parlours.find? (fun p => p.1 == (g, d)) with
  | some p => p.2
  | none => []
/-- Replace a parlour. -/
def State.setParlour (s : State) (g d : Nat) (m : Mem) : State :=
  { s with mem := { s.mem with parlours := ((g, d), m) :: s.mem.parlours.filter (fun p => p.1 != (g, d)) } }

/-- The receipt of a message at a die: its count passes the stamp (R24). -/
def State.stampIn (s : State) (b : Nat) (c : W64) : State :=
  let d := s.die b
  s.setDie b { d with count := (if d.count.toNat ≤ c.toNat then c else d.count) + 1 }
/-- A flit of a peer module reaches the hub die (R24): its stamp is a free value (LOG 110). -/
def State.peerIn (s : State) : State := { s with fresh := s.fresh + 1 }.stampIn 4 (Config.peerStamp s.fresh)
/-- An event at a die: a message leaves it (R23). -/
def State.sendOut (s : State) (a : Nat) : State := s.setDie a { s.die a with count := (s.die a).count + 1 }
/-- A message from die a to die b (R23, R24): an event at the sender, and the receiver passes the stamp. -/
def State.msg (s : State) (a b : Nat) : State :=
  if a = b then s
  else (s.sendOut a).stampIn b ((s.die a).count + 1)

/-- Apply a function for each element in order. -/
def State.each {α : Type} (s : State) (l : List α) (f : State → α → State) : State := l.foldl f s

/-- A new number for a team, request or job. -/
def State.newId (s : State) : Nat × State := (s.ids + 1, { s with ids := s.ids + 1 })

end Sys2Proof.Machine
end

