-- ==== Sys2Proof/Machine/Memory.lean ====
section
/-! DEFINITION. Memory as programs see it: translation (R79 to R82), the address checks (R60, R205), caches (R65 to R77), poison (R434 to
R438), the undo log and the dirty map (R49, R322), the recorder (R318). -/

namespace Sys2Proof.Machine

/-- What a walk gives: the entry of the leaf with the physical address, or the level and reason of R444. -/
inductive Walk where
  | ok (pte : W64) (pa : Nat)
  | bad (level reason : Nat)
  deriving DecidableEq, Repr

/-- The home die of a physical address (R11). -/
def homeDie (pa : Nat) : Nat :=
  if pa < 0x1800000000 then 0 else if pa < 0x3000000000 then 1 else if pa < 0x6000000000 then 2 else 3
/-- The first physical address beyond device memory (R11). -/
def devTop : Nat := 0x9000000000

/-- The address bits that a level leaves to the page: 16, 21, 30, 39 for levels 0 to 3 (R79). -/
def levelShift : Nat → Nat
  | 0 => 16
  | 1 => 21
  | 2 => 30
  | _ => 39
/-- The index of a virtual address at a level (R79). -/
def levelIndex (l va : Nat) : Nat := va / 2 ^ levelShift l % (if l = 0 then 32 else 512)

/-- PN of an entry (R80). -/
def pteP (e : W64) : Bool := e.getLsbD 7
/-- MS of an entry. -/
def pteMs (e : W64) : Bool := e.getLsbD 6
/-- The target of an entry: 0 device, 1 host uncached, 2 host visitor-cached. -/
def pteTgt (e : W64) : Nat := bits e 4 2
/-- X of an entry. -/
def pteX (e : W64) : Bool := e.getLsbD 3
/-- W of an entry. -/
def pteW (e : W64) : Bool := e.getLsbD 1

/-- The check of a leaf entry at a level (R80), a frame beyond the memory of R11 counting as misaligned (LOG 11); of several reasons the first of R444's
list is given (LOG 95). -/
def leafReason (l : Nat) (e : W64) : Option Nat :=
  if bits e 52 12 ≠ 0 ∨ bits e 8 8 ≠ 0 then some 1
  else if pteTgt e = 3 then some 2
  else if pteMs e ∧ pteTgt e ≠ 0 then some 3
  else if l = 3 then some 4
  else if bits e 16 (levelShift l - 16) ≠ 0 then some 5
  else if pteTgt e = 0 ∧ devTop ≤ bits e 16 36 * 65536 then some 5
  else none

/-- The walk of R79 and R80 from a table at level `l` (fuel: the level). Bits [63:52] of a non-leaf entry have no meaning (LOG 96); a table is read
where `next` places it (LOG 97). -/
def State.walkFrom (s : State) (va : Nat) : Nat → Nat → Walk
  | l, table =>
    let a := table + 8 * levelIndex l va
    let e : W64 := BitVec.ofNat 64 (leNat (s.mem.dev.readN a 8))
    if s.mem.devPx.contains (a / 32) then .bad l 6
    else if e.getLsbD 0 = false then .bad l 0
    else if e.getLsbD 2 then
      match leafReason l e with
      | some r => .bad l r
      | none => .ok e (bits e 16 36 * 65536 + va % 2 ^ levelShift l)
    else
      match l with
      | 0 => .bad 0 4
      | k + 1 => s.walkFrom va k (bits e 8 44 * 256)

/-- Translate a global address of an address space by a walk; with no root nothing translates (R79). The physical function's commands name device
physical addresses (LOG 36). -/
def State.walk (s : State) (asn : Option Nat) (va : Nat) : Walk :=
  if asn = some 128 then (if va < devTop then .ok (BitVec.ofNat 64 (va / 65536 * 65536 + 7)) va else .bad 3 0)
  else match asn.bind fun n => (s.space n).root with
  | none => .bad 3 0
  | some r => s.walkFrom va 3 r

/-- A translation that a die's TLB holds (R81). -/
def tlbFind (asn va : Nat) : List TlbEnt → Option TlbEnt
  | [] => none
  | e :: t => if e.asn = asn ∧ va / 2 ^ levelShift e.level = e.page then some e else tlbFind asn va t

/-- A translation that a TLB holds and has not evicted: `id` tells the TLBs apart (R81, R82, LOG 9). -/
def State.tlbHit (s : State) (id asn va : Nat) (l : List TlbEnt) : Option TlbEnt :=
  (tlbFind asn va l).filter fun _ => Config.tlbHolds s.issues id (va / 65536)

/-- Translate as an access of a core does: the core's TLB, the die's, and otherwise a walk (R81, R82, LOG 9). -/
def State.xlate (s : State) (c : Nat) (asn : Option Nat) (va : Nat) : Walk :=
  match asn.bind fun n => (s.tlbHit c n va (s.core c).tlb).or (s.tlbHit (256 + dieOf c) n va (s.die (dieOf c)).tlb) with
  | some e => .ok e.pte (bits e.pte 16 36 * 65536 + va % 2 ^ levelShift e.level)
  | none => s.walk asn va

/-- Put an entry into a TLB of `n` entries; a full one evicts an entry (R81, LOG 93). -/
def tlbPut (v n : Nat) (e : TlbEnt) (l : List TlbEnt) : List TlbEnt := e :: if n ≤ l.length then l.eraseIdx (v % n) else l

/-- The level of the leaf that a walk reaches (R79). -/
def State.leafLevel (s : State) (va : Nat) : Nat → Nat → Nat
  | 0, _ => 0
  | l + 1, table =>
    let e : W64 := BitVec.ofNat 64 (leNat (s.mem.dev.readN (table + 8 * levelIndex (l + 1) va) 8))
    if e.getLsbD 2 then l + 1 else s.leafLevel va l (bits e 8 44 * 256)

/-- Two addresses of an address space lie in one page, whose size the walk of the first finds (R79, R81); one that fails finds no size, and 64 KiB
stand for it (LOG 9). -/
def State.samePage (s : State) (n va va' : Nat) : Bool :=
  let l := match (s.space n).root, s.walk (some n) va with
    | some r, .ok _ _ => s.leafLevel va 3 r
    | _, _ => 0
  va / 2 ^ levelShift l == va' / 2 ^ levelShift l

/-- A miss in both TLBs starts a walk of the die, or joins the one under way for its page (R81). -/
def State.miss (s : State) (c : Nat) (asn : Option Nat) (va : Nat) : State :=
  match asn with
  | none => s
  | some n =>
    if n = 128 ∨ 2 ^ 47 ≤ va ∨ (tlbFind n va (s.core c).tlb).isSome ∨ (tlbFind n va (s.die (dieOf c)).tlb).isSome then s
    else
      let mine (m : Miss) : Bool := m.asn == n && s.samePage n (m.page * 65536) va
      let ws := get [] s.walks (dieOf c)
      let ws := if ws.any mine then ws.map fun m => if mine m then { m with cores := insertNat c m.cores } else m
        else ws ++ [⟨n, va / 65536, [c]⟩]
      { s with walks := put s.walks (dieOf c) ws }

/-! ### The address checks of R205 -/

/-- How an access is formed: a virtual address, an offset into the own scratchpad, that of a card or record there, a read inside a window of `n` bytes below its size, whose width is `align`, a `poison` line, an
atomic of an operation. -/
inductive Form where
  | gen
  | off
  | card
  | win
  | poison
  | atom (op : AtomOp)
  deriving DecidableEq, Repr

/-- One lane's access before its check: access code of R411 (0 read, 1 write, 2 atomic), address or offset, width, alignment. -/
structure Req where
  lane : Nat
  va : Nat
  n : Nat
  align : Nat
  acc : Nat
  form : Form := .gen
  deriving DecidableEq, Repr

/-- The width that a fault reports (R411): that of the read inside a window, 128 for a card or a record. -/
def Req.width (q : Req) : Nat :=
  match q.form with
  | .win => q.align
  | .card => 128
  | _ => q.n

/-- The scratchpad allocation of a team in bytes, whole 1 KiB rows (R35, R140, LOG 12). -/
def Grid.alloc (g : Grid) : Nat := (g.scratch + 1023) / 1024 * 1024

/-- The base of the own-scratchpad window. -/
def scrBase : Nat := 0xFFFFFE0000000000

/-- A virtual address is canonical (R60). -/
def canonical (va : Nat) : Bool := va < 2 ^ 47 || 2 ^ 64 - 2 ^ 47 ≤ va

/-- The rank of an address kind in R412. -/
def kindRank (k : Nat) : Nat :=
  (findIdx (· == k) [0x0601, 0x0602, 0x0603, 0x0604, 0x0605, 0x060B, 0x0607, 0x0606]).elim 8 Prod.fst

/-- The least-ranked of some kinds. -/
def firstKind (ks : List Nat) : Option Nat := leastBy kindRank ks

/-- A kind under a condition. -/
def kindIf (b : Bool) (k : Nat) : List Nat := if b then [k] else []

/-- The check of an access to an untranslated allocation, with its target. -/
def checkAlloc (q : Req) (off size : Nat) (mis : Bool) (tgt : Tgt) (bad : List Nat) : Except (Nat × Nat) Acc :=
  let n := if q.form = .poison then 1 else q.n
  match firstKind (kindIf (decide (size < off + n)) 0x0603 ++ kindIf mis 0x0604 ++ bad) with
  | some k => .error (k, 0)
  | none => .ok ⟨q.lane, q.va, tgt, q.n⟩

/-- Whether an operation may act on host memory (R76). -/
def hostAtomOk : AtomOp → Bool
  | .add | .xchg | .cas => true
  | _ => false

/-- Check one lane's read inside a window in the order of R205 (R63, R216, R217): of bytes at or beyond the size the alignment alone. A window reaches
global addresses, so that every upper-half one lies outside its region (LOG 136). -/
def State.checkWin (s : State) (c : Nat) (asn : Option Nat) (q : Req) : Except (Nat × Nat) Acc :=
  if q.n ≠ 0 ∧ !canonical q.va then .error (0x0601, 0)
  else if q.n ≠ 0 ∧ 2 ^ 47 ≤ q.va then .error (0x0602, 0)
  else if q.va % q.align ≠ 0 then .error (0x0604, 0)
  else if q.n = 0 then .ok ⟨q.lane, q.va, .zero, 0⟩
  else match s.xlate c asn q.va with
  | .bad l r => .error (0x0701, l * 1024 + r * 8192)
  | .ok e pa =>
    if pteP e then .error (0x0606, 0)
    else .ok ⟨q.lane, q.va, if pteTgt e ≠ 0 then .host pa (pteTgt e == 2) else .dev pa (pteMs e), q.n⟩

/-- Check one lane's access from core `c` (R205): the kind that fails first with the bits of aux above bit 9, or the access. The scratchpad of a gang
peer that has retired is still reached (LOG 121). -/
def State.check (s : State) (g : Group) (c : Nat) (q : Req) : Except (Nat × Nat) Acc :=
  let gr := s.gridOf g
  let t := s.team g.team
  let mis := q.va % q.align ≠ 0
  if q.form = .win then s.checkWin c (s.asnOf gr.vf) q
  else if q.form = .off ∨ q.form = .card then checkAlloc { q with va := scrBase + q.va } q.va gr.alloc mis (.scr g.team q.va) []
  else if !canonical q.va then .error (0x0601, 0)
  else if 2 ^ 47 ≤ q.va then
    let d := q.va - scrBase
    if q.va < scrBase ∨ 0x3000000000 ≤ d then .error (0x0602, 0)
    else if d < 0x1000000000 then checkAlloc q d gr.alloc mis (.scr g.team d) []
    else if d < 0x2000000000 then
      let p := d - 0x1000000000
      let pos := p / 0x1000000
      let off := p % 0x1000000
      let tms := if gr.gang = 0 then [g.team] else t.gangTeams
      let bad := kindIf (q.form = .poison) 0x060B
      if tms.getD pos 0 = 0 then .error (0x0603, 0)
      else checkAlloc q off gr.alloc mis (.scr (tms.getD pos 0) off) bad
    else
      checkAlloc q (d - 0x2000000000) gr.parlour mis (.par g.grid (dieOf c) (d - 0x2000000000)) (kindIf (q.form = .poison) 0x060B)
  else
    if mis then .error (0x0604, 0)
    else match s.xlate c (s.asnOf gr.vf) q.va with
    | .bad l r => .error (0x0701, l * 1024 + r * 8192)
    | .ok e pa =>
      let host := pteTgt e ≠ 0
      let opBad := match q.form with
        | .atom op => host && !hostAtomOk op
        | _ => false
      match firstKind (kindIf (q.acc ≠ 0 && !pteW e) 0x0605 ++ kindIf (q.form = .poison && host) 0x060B
          ++ kindIf opBad 0x0607 ++ kindIf (pteP e) 0x0606) with
      | some k => .error (k, 0)
      | none => .ok ⟨q.lane, q.va, if host then .host pa (pteTgt e == 2) else .dev pa (pteMs e), q.n⟩

/-- The fault of a failed check: the lanes that fail the first check, the lowest of them giving addr and aux (R397, R411). -/
def faultOf (bad : List (Req × (Nat × Nat))) : Option Flt :=
  match leastBy (fun b => kindRank b.2.1) bad with
  | none => none
  | some b =>
    some { kind := b.2.1, mask := bad.foldl (fun m c => if c.2.1 = b.2.1 then m ||| BitVec.ofNat 64 (2 ^ c.1.lane) else m) 0,
           addr := BitVec.ofNat 64 b.1.va, aux := BitVec.ofNat 64 (b.1.width + b.1.acc * 256 + b.2.2) }

/-- The line of a `poison` (R452): its 128 bytes, whatever the alignment of the address. -/
def Acc.line (a : Acc) : Acc :=
  { a with va := a.va / 128 * 128
           tgt := match a.tgt with
             | .dev pa ms => .dev (pa / 128 * 128) ms
             | .scr t off => .scr t (off / 128 * 128)
             | t => t }

/-- Check every active lane's access: the fault of the first failing check, or all the accesses (R205). -/
def State.checkAll (s : State) (g : Group) (c : Nat) (qs : List Req) : Except Flt (List Acc) :=
  let rs := qs.map fun q => (q, s.check g c q)
  match faultOf (rs.filterMap fun r => match r.2 with
    | .error e => some (r.1, e)
    | .ok _ => none) with
  | some f => .error f
  | none => .ok (rs.filterMap fun r => match r.2 with
    | .ok a => some (if r.1.form = .poison then a.line else a)
    | .error _ => none)

/-! ### The link and the L2 -/

/-- A flit goes out on the Chikar link and stays in the 128-flit replay buffer until it is acknowledged (R462, LOG 37); it is held while the buffer is
full or the link retrains. -/
def State.sendFlit (s : State) : State :=
  let l := s.mod_.link
  if l.state = 3 then s
  else if l.state = 2 ∨ 128 ≤ l.buffer.length then { s with mod_ := { s.mod_ with link := { l with held := l.held + 1 } } }
  else { s with mod_ := { s.mod_ with link := { l with buffer := l.buffer ++ [(l.sent, l.actkey)], sent := l.sent + 1 } } }

/-- An access of a die to host memory crosses the hub link and the Chikar link (R361). -/
def State.toHost (s : State) (die : Nat) : State := (s.msg die 4).sendFlit
/-- The same with an answer that comes back (R24). -/
def State.hostTrip (s : State) (die : Nat) : State := (s.toHost die).msg 4 die

/-- The Chikar link carries nothing now: what reaches across it waits (R462). -/
def State.linkHeld (s : State) : Bool := decide (2 ≤ s.mod_.link.state)

/-- A byte of host memory as the module's reads find it, behind its own writes (R462). -/
def State.hostRead (s : State) (a : Nat) : Byte :=
  if s.mod_.link.state < 2 then s.mem.host.read a else (get? s.mem.late a).getD (s.mem.host.read a)
/-- Write bytes of host memory: at once while the link is up, and otherwise when it is up again (R462, LOG 37). -/
def State.hostWrite (s : State) (a : Nat) (bs : List Byte) : State :=
  if s.mod_.link.state < 2 then { s with mem := { s.mem with host := s.mem.host.writeN a bs } }
  else { s with mem := { s.mem with late := bs.zipIdx.foldl (fun m b => put m (a + b.2) b.1) s.mem.late } }

/-- The slice and the set in which the L2 of a die places a line (R72, R389). -/
def l2Place (die pa : Nat) : Nat × Nat :=
  let colour := pa / 2 ^ 16 % 64
  ((pa / 2 ^ 7 % 512 ^^^ pa / 2 ^ 16 % 512 ^^^ pa / 2 ^ 25 % 512) % 48,
   if die < 2 then colour * 16 + pa / 2 ^ 12 % 16 else colour * 32 + pa / 2 ^ 11 % 32)

/-! ### Lines -/

/-- The key of the line of an address. -/
def lineKey (host : Bool) (a : Nat) : Nat := a / 128 * 2 + (if host then 1 else 0)
/-- The address of a line's first byte. -/
def lineAddr (k : Nat) : Nat := k / 2 * 128
/-- The line is host memory. -/
def lineHost (k : Nat) : Bool := k % 2 == 1
/-- Offsets of a line's bytes. -/
def lineOffs : List Nat := List.range 128

/-- A byte at its home: the home L2 or memory slice, or host memory. -/
def State.homeByte (s : State) (k o : Nat) : Byte := if lineHost k then s.hostRead (lineAddr k + o) else s.mem.dev.read (lineAddr k + o)
/-- A sector (0 to 3) of a line is poisoned at its home. -/
def State.homePx (s : State) (k sec : Nat) : Bool := !lineHost k && s.mem.devPx.contains (lineAddr k / 32 + sec)

/-- A byte is held. -/
def Line.valid (l : Line) (o : Nat) : Bool := (get? l.bytes o).isSome
/-- A byte is held dirty. -/
def Line.dirty (l : Line) (o : Nat) : Bool := (get (0, false) l.bytes o).2
/-- Every byte of a sector satisfies `p`. -/
def secAll (p : Nat → Bool) (sec : Nat) : Bool := (List.range 32).all fun i => p (sec * 32 + i)
/-- Some byte of a sector satisfies `p`. -/
def secAny (p : Nat → Bool) (sec : Nat) : Bool := (List.range 32).any fun i => p (sec * 32 + i)
/-- Some byte is dirty. -/
def Line.anyDirty (l : Line) : Bool := l.bytes.any fun b => b.2.2
/-- Keep only the dirty bytes (R69, R21), and the poison of the sectors that keep a byte. -/
def Line.invalidate (l : Line) : Line :=
  { l with bytes := l.bytes.filter fun b => b.2.2, px := l.px.filter fun x => secAny l.dirty x }

/-- A line of a die goes through that die's L2 as a visitor (R21, R73, R74). -/
def needsVisitor (die k : Nat) (ms : Bool) : Bool := lineHost k || (homeDie (lineAddr k) != die && !ms)

/-- Replace a line of a table, or drop it when it holds nothing. -/
def putLine (m : FMap Line) (k : Nat) (l : Line) : FMap Line := if l.bytes = [] then drop m k else put m k l

/-- Mark or clear the poison of a sector of device memory. -/
def State.setDevPx (s : State) (sec : Nat) (b : Bool) : State :=
  { s with mem := { s.mem with devPx := if b then insertNat sec s.mem.devPx else s.mem.devPx.filter (· != sec) } }
/-- Write a byte at its home. -/
def State.setHomeByte (s : State) (k o : Nat) (b : Byte) : State :=
  if lineHost k then s.hostWrite (lineAddr k + o) [b]
  else { s with mem := { s.mem with dev := s.mem.dev.write (lineAddr k + o) b } }

/-- Bring the dirty bytes of a line to its home with their poison (R21, R435, R437). -/
def State.lineHome (s : State) (k : Nat) (l : Line) : State :=
  let s := (l.bytes.filter fun b => b.2.2).foldl (fun s b => s.setHomeByte k b.1 b.2.1) s
  if lineHost k then s
  else (List.range 4).foldl (fun s x =>
    if l.px.contains x && secAny l.dirty x then s.setDevPx (lineAddr k / 32 + x) true
    else if secAll l.dirty x then s.setDevPx (lineAddr k / 32 + x) false else s) s

/-- A line all of whose dirty bytes have gone. -/
def Line.clean (l : Line) : Line := { l with bytes := l.bytes.map fun b => (b.1, b.2.1, false) }

/-- Merge the dirty bytes of one line into another as dirty bytes. -/
def Line.absorb (v l : Line) : Line :=
  { v with
    bytes := (l.bytes.filter fun b => b.2.2).foldl (fun m b => put m b.1 (b.2.1, true)) v.bytes
    px := (List.range 4).foldl (fun p x =>
      if l.px.contains x && secAny l.dirty x then insertNat x p
      else if secAll l.dirty x then p.filter (· != x) else p) v.px }

/-- Write a visitor line back home (R21, R74), where it takes a place in the home L2 that `room` makes (R72). -/
def State.visitorHomeBy (room : State → Nat → Nat → State) (s : State) (die k : Nat) : State :=
  let d := s.die die
  match get? d.visitors k with
  | none => s
  | some l =>
    if l.anyDirty then
      let s := s.lineHome k l
      let s := s.setDie die { s.die die with visitors := putLine (s.die die).visitors k l.clean }
      if lineHost k then s.toHost die else room (s.msg die (homeDie (lineAddr k))) (homeDie (lineAddr k)) k
    else s

/-- Drop a visitor line after writing it home (R77). -/
def State.visitorDropBy (room : State → Nat → Nat → State) (s : State) (die k : Nat) : State :=
  let s := s.visitorHomeBy room die k
  s.setDie die { s.die die with visitors := drop (s.die die).visitors k }

/-- The keys among `ks` that leave to make room for one more in a cache with room for `n` of them (LOG 93). -/
def victims (fresh n : Nat) (ks : List Nat) : List Nat :=
  let rest := ks.filter fun k => !Config.evicts fresh k
  ks.filter (Config.evicts fresh) ++ (rest.rotateLeft (Config.victim fresh)).take (rest.length + 1 - n)

/-- The bytes of a die's L2 that parlours hold (R18, R19). -/
def State.parlourHeld (s : State) (die : Nat) : Nat := s.grids.foldl (fun a e => if e.2.run.parlour.contains die then a + e.2.parlour else a) 0

/-- Sets of one slice of a die's L2 (R389). -/
def l2Sets (die : Nat) : Nat := if die < 2 then 1024 else 2048
/-- Sets of one slice and one colour of a die's L2 (R389). -/
def colourSets (die : Nat) : Nat := l2Sets die / 64
/-- The colours of a partition's mask below c (R388). -/
def coloursBelow (m : W64) (c : Nat) : Nat := ((List.range c).filter m.getLsbD).length
/-- The lines that a parlour of n bytes takes from a set of a die's L2: from the sets of its partition's colours in turn (R19, R390, LOG 93). -/
def parlourTakes (die n : Nat) (m : W64) (p : Nat × Nat) : Nat :=
  let per := colourSets die
  if !m.getLsbD (p.2 / per) then 0
  else
    let sets := 48 * per * coloursBelow m 64
    let place := (p.1 * coloursBelow m 64 + coloursBelow m (p.2 / per)) * per + p.2 % per
    n / 128 / sets + if place < n / 128 % sets then 1 else 0
/-- The ways of a set that the parlours of a die leave (R19, R389, R390). -/
def State.l2Ways (s : State) (die : Nat) (p : Nat × Nat) : Nat :=
  16 - s.grids.foldl (fun a e => if e.2.run.parlour.contains die then a + parlourTakes die e.2.parlour (s.part (s.vf e.2.vf).part).colour p else a) 0

/-- The visitor lines in the set of line `k` on a die. -/
def State.l2Set (s : State) (die k : Nat) : List Nat :=
  ((s.die die).visitors.map Prod.fst).filter fun j => l2Place die (lineAddr j) == l2Place die (lineAddr k)

/-- Line `k` takes a place in the L2 of a die: visitor lines of its set may be evicted, and then go home, where they take places in turn (R21, R72, R389,
LOG 93); by the number of evictions that may follow one another. -/
def State.l2Evict : Nat → State → Nat → Nat → State
  | 0, s, _, _ => s
  | n + 1, s, die, k =>
    let ks := s.l2Set die k
    if ks = [] ∨ ks.contains k then s
    else (victims s.fresh (s.l2Ways die (l2Place die (lineAddr k))) ks).foldl (fun s j => s.visitorDropBy (State.l2Evict n) die j)
      { s with fresh := s.fresh + 1 }

/-- Line `k` takes a place in the L2 of a die: each eviction takes a visitor line away, so that no more follow one another than there are such lines. -/
def State.l2Room (s : State) (die k : Nat) : State := s.l2Evict ((s.dies.foldl (fun a d => a + d.2.visitors.length) 0) + 1) die k

/-- Write a visitor line back home (R21, R72, R74). -/
def State.visitorHome (s : State) (die k : Nat) : State := s.visitorHomeBy State.l2Room die k
/-- Drop a visitor line after writing it home (R77). -/
def State.visitorDrop (s : State) (die k : Nat) : State := s.visitorDropBy State.l2Room die k

/-- A line of device memory takes a place in the L2 of its home die (R72), one of a memory-side page in none (R73). -/
def State.homeRoom (s : State) (pa : Nat) (ms : Bool) : State := if ms then s else s.l2Room (homeDie pa) (lineKey false pa)

/-- A die reads or writes at the home of a line of device memory, and has its answer (R12, R23, R72). -/
def State.lineTrip (s : State) (die pa : Nat) (ms : Bool) : State := ((s.msg die (homeDie pa)).homeRoom pa ms).msg (homeDie pa) die

/-- A parlour has been carved: the sets of the die keep no more visitor lines than the ways that are left (R19, LOG 93). -/
def State.l2Trim (s : State) (die : Nat) : State :=
  ((s.die die).visitors.map Prod.fst).foldl (fun s k =>
    let ks := s.l2Set die k
    (ks.take (ks.length - s.l2Ways die (l2Place die (lineAddr k)))).foldl (fun s j => s.visitorDrop die j) s) s

/-- What stands in the dirty-line FIFO in place of a line that has been evicted since (R68): the key of no line. -/
def skipKey : Nat := 2 ^ 64
/-- Entries of evicted lines are skipped when they reach the head (R68). -/
def skipHead (l : List Nat) : List Nat := l.dropWhile (· == skipKey)
/-- The entry of a line leaves the dirty-line FIFO with it (R68). -/
def Core.leaves (c : Core) (k : Nat) : Core := { c with dirty := skipHead (c.dirty.filter (· != k)) }
/-- The entry of an evicted line stays until it reaches the head (R68). -/
def Core.skips (c : Core) (gone : Nat → Bool) : Core := { c with dirty := skipHead (c.dirty.map fun k => if gone k then skipKey else k) }

/-- Write an L1 line back to the L2 (R67, R68): into the visitor line, or home. Its entry leaves the dirty-line FIFO. -/
def State.l1Back (s : State) (c k : Nat) : State :=
  let co := s.core c
  match get? co.l1 k with
  | none => s
  | some l =>
    let s := s.setCore c ({ co with l1 := putLine co.l1 k l.clean }.leaves k)
    if !l.anyDirty then s
    else if needsVisitor (dieOf c) k l.ms then
      let s := s.l2Room (dieOf c) k
      let d := s.die (dieOf c)
      s.setDie (dieOf c) { d with visitors := put d.visitors k ((get { host := lineHost k } d.visitors k).absorb l) }
    else
      let s := s.lineHome k l
      (s.msg (dieOf c) (homeDie (lineAddr k))).homeRoom (lineAddr k) l.ms

/-- An L1 line is written back and leaves the L1, by an eviction or ahead of an atomic; its entry in the dirty-line FIFO will be skipped (R68, R77). -/
def State.l1Drop (s : State) (c k : Nat) : State :=
  let fifo := ((s.core c).skips (· == k)).dirty
  let s := s.l1Back c k
  s.setCore c { s.core c with l1 := drop (s.core c).l1 k, dirty := fifo }

/-- The lines of one core's L1 or of its part of a fused one (R70): 256 KiB. -/
def l1Lines : Nat := 2048

/-- Line `k` takes a place in an L1: lines may be evicted, and are written back at once (R68, LOG 93). -/
def State.l1Room (s : State) (c k : Nat) : State :=
  let ks := (s.core c).l1.map Prod.fst
  if ks = [] ∨ ks.contains k then s
  else (victims s.fresh l1Lines ks).foldl (fun s j => s.l1Drop c j) { s with fresh := s.fresh + 1 }

/-- The core whose L1 holds a line: the core itself, or in a fused suite the part of R71. -/
def l1Core (fused : Bool) (c k : Nat) : Nat :=
  if !fused then c
  else
    let suite := c % 64 / 4
    let n := k / 2 % 4
    let m := if suite = 11 ∧ n = 3 then k / 2 / 4 % 2 else n
    dieOf c * 64 + 4 * suite + m
/-- Every core whose L1 a group's release and acquire reach (R71). -/
def l1Cores (fused : Bool) (c : Nat) : List Nat :=
  if !fused then [c]
  else
    let suite := c % 64 / 4
    (List.range (if suite = 11 then 3 else 4)).map fun n => dieOf c * 64 + 4 * suite + n

/-- A byte and its poison as the L2 of a die gives it (R72): the visitor line where it holds the byte, otherwise the home. -/
def State.l2Byte (s : State) (die k o : Nat) (ms : Bool) : Byte × Bool :=
  let vis := if needsVisitor die k ms then get {} (s.die die).visitors k else {}
  match get? vis.bytes o with
  | some b => (b.1, vis.px.contains (o / 32) || (!secAll vis.valid (o / 32) && s.homePx k (o / 32)))
  | none => (s.homeByte k o, vis.px.contains (o / 32) || s.homePx k (o / 32))

/-- A line filled from below: what is fetched is merged under the valid mask, so that the bytes that the line holds are kept (R67). -/
def fillFrom (l : Line) (below : Nat → Byte × Bool) : Line :=
  { l with
    bytes := lineOffs.map fun o => (o, (get? l.bytes o).getD ((below o).1, false))
    px := (List.range 4).filter fun x => (l.px.contains x && secAny l.valid x) || (!secAll l.valid x && (below (x * 32)).2) }

/-- Fetch a line into a die's L2 as a visitor, whose clean bytes are fetched anew, and into the L1 of a core, where it is merged under the valid mask
(R67, R72). -/
def State.fill (s : State) (c k : Nat) (ms : Bool) : State :=
  let die := dieOf c
  let s := s.l1Room c k
  let s := if needsVisitor die k ms then
      let s := s.l2Room die k
      let v := get { host := lineHost k } (s.die die).visitors k
      if lineOffs.all v.valid then s
      else
        let s := if lineHost k then s.hostTrip die else s.lineTrip die (lineAddr k) ms
        s.setDie die { s.die die with visitors := put (s.die die).visitors k (fillFrom v.invalidate fun o => (s.homeByte k o, s.homePx k (o / 32))) }
    else s.lineTrip die (lineAddr k) ms
  let l := get {} (s.core c).l1 k
  let l := { l with host := lineHost k, ms := ms }
  s.setCore c { s.core c with l1 := put (s.core c).l1 k (fillFrom l fun o => s.l2Byte die k o ms) }

/-- Enter a line into the dirty-line FIFO when it first becomes dirty; a full FIFO first writes back its head (R68). -/
def State.enterDirty (s : State) (c k : Nat) : State :=
  if (s.core c).dirty.contains k then s
  else
    let s := if 256 ≤ (s.core c).dirty.length then
        let h := (s.core c).dirty.headD 0
        let s := s.l1Back c h
        s.setCore c ((s.core c).leaves h)
      else s
    s.setCore c { s.core c with dirty := (s.core c).dirty ++ [k] }

/-- Store bytes of one line into an L1 (R67). `whole x` says that one instruction replaces all of sector x (R435). -/
def State.l1Store (s : State) (c k : Nat) (ms : Bool) (bs : List (Nat × Byte)) (whole : Nat → Bool) : State :=
  let s := (s.l1Room c k).enterDirty c k
  let co := s.core c
  let l := get {} co.l1 k
  s.setCore c { co with l1 := put co.l1 k { l with
    host := lineHost k, ms := ms
    bytes := bs.foldl (fun m b => put m b.1 (b.2, true)) l.bytes
    px := l.px.filter fun x => !whole x } }

/-- Write back the dirty visitor lines of a die: device lines, and host lines too when `host` (R21, R74). -/
def State.visitorsBack (s : State) (die : Nat) (host : Bool) : State :=
  (s.die die).visitors.foldl (fun s e => if lineHost e.1 && !host then s else s.visitorHome die e.1) s

/-- What the drain of a release does at a scope (R219). -/
def State.release (s : State) (c : Nat) (fused : Bool) (sc : Scope) : State :=
  match sc with
  | .grp | .team => s
  | .suite | .die => (l1Cores fused c).foldl (fun s c => (s.core c).dirty.foldl (fun s k => s.l1Back c k) s) s
  | .pkg | .sys =>
    let s := (l1Cores fused c).foldl (fun s c => (s.core c).dirty.foldl (fun s k => s.l1Back c k) s) s
    s.visitorsBack (dieOf c) (sc == .sys)

/-- Invalidate the global lines of one L1 (R69). -/
def State.l1Invalidate (s : State) (c : Nat) : State :=
  let co := s.core c
  s.setCore c { co with l1 := (co.l1.map fun e => (e.1, e.2.invalidate)).filter fun e => e.2.bytes != [] }

/-- What an acquire does at a scope (R219). -/
def State.acquire (s : State) (c : Nat) (fused : Bool) (sc : Scope) : State :=
  let all := (l1Cores fused c).foldl State.l1Invalidate s
  let vis (s : State) (host : Bool) : State :=
    let d := s.die (dieOf c)
    s.setDie (dieOf c) { d with visitors := (d.visitors.map fun e => if lineHost e.1 && !host then e else (e.1, e.2.invalidate)).filter fun e => e.2.bytes != [] }
  match sc with
  | .grp | .team => s
  | .suite => if fused then s else all
  | .die => all
  | .pkg => vis all false
  | .sys => vis all true

/-! ### Bytes of every region -/

/-- Where a byte of a target lies: region, and two numbers that tell it apart from every other byte. -/
def Tgt.at_ (t : Tgt) (i : Nat) : Nat × Nat × Nat :=
  match t with
  | .dev pa _ => (0, 0, pa + i)
  | .host a _ => (1, 0, a + i)
  | .scr t off => (2, t, off + i)
  | .par g d off => (3, g * 4 + d, off + i)
  | .zero => (4, 0, i)

/-- Two accesses share a byte. -/
def Acc.meets (a b : Acc) : Bool :=
  let x := a.tgt.at_ 0
  let y := b.tgt.at_ 0
  x.1 == y.1 && x.1 != 4 && x.2.1 == y.2.1 && decide (x.2.2 < y.2.2 + b.n) && decide (y.2.2 < x.2.2 + a.n)

/-- Mark the granule of a write dirty in the current generation's plane (R322). -/
def State.markDirty (s : State) (asn : Option Nat) (va : Nat) : State :=
  match asn with
  | none => s
  | some n =>
    let sp := s.space n
    let p := sp.gen % 4
    s.setSpace n { sp with planes := put sp.planes p (insertNat (va / 4096) (get [] sp.planes p)) }

/-- The groups, in slot order, that belong to a team. -/
def State.groupsOf (s : State) (t : Nat) : List (Nat × Group) := s.groups.filter fun e => e.2.team == t && e.2.live

/-- The partition of a grid. -/
def State.partOf (s : State) (g : Grid) : Nat := (s.vf g.vf).part

/-- A range of a partition register (R388): base and count in units. -/
def partRange (r : W64) (lo : Nat) : Nat × Nat := (bits r lo 5, bits r (lo + 5) 5)
/-- Group slots of a partition: base, count. -/
def Part.slots (p : Part) : Nat × Nat := ((partRange p.reg 0).1 * 8, (partRange p.reg 0).2 * 8)
/-- Register rows of a partition on a core. -/
def Part.rows (p : Part) : Nat := (partRange p.reg 10).2 * 384
/-- Scratchpad bytes of a partition on a core. -/
def Part.scr (p : Part) : Nat := (partRange p.reg 20).2 * 524288
/-- Semaphores of a partition: base, count. -/
def Part.sems (p : Part) : Nat × Nat := ((partRange p.reg 30).1 * 4, (partRange p.reg 30).2 * 4)

/-- The live guarded teams of a partition on a core (R50). -/
def State.guardedOn (s : State) (c part : Nat) : List (Nat × Team) :=
  s.teams.filter fun e => e.2.live && e.2.core == c && (s.grid e.2.grid).guarded && s.partOf (s.grid e.2.grid) == part

/-- An interval becomes published (R51). -/
def State.publish (s : State) (t : Nat) : State :=
  let tm := s.team t
  if (s.grid tm.grid).guarded then s.setTeam t { tm with guard := { tm.guard with published := true } } else s

/-- The team belongs to a guarded grid and its interval is unpublished. -/
def State.guardOpen (s : State) (t : Nat) : Bool :=
  (s.grid (s.team t).grid).guarded && !(s.team t).guard.published

/-- A line of memory as a core sees it: its bytes. -/
def State.viewLine (s : State) (c k : Nat) (ms : Bool) : List Byte :=
  let l := fillFrom (get {} (s.core c).l1 k) fun o => s.l2Byte (dieOf c) k o ms
  lineOffs.map fun o => (get (0, false) l.bytes o).1

/-- Undo-log a global line at its first write in the interval; a full undo area publishes (R49, R51, LOG 13). -/
def State.logLine (s : State) (t c pa va : Nat) (ms : Bool) : State :=
  if !s.guardOpen t then s
  else
    let tm := s.team t
    let k := lineKey false pa
    if (get? tm.guard.undo k).isSome then s
    else if 8192 ≤ tm.guard.undo.length then s.publish t
    else
      let v := s.viewLine (l1Core (s.grid tm.grid).fused c k) k ms
      s.setTeam t { tm with guard := { tm.guard with undo := put tm.guard.undo k (v, va / 128 * 128, ms) } }

/-- Undo-log a scratchpad line of 64 bytes; a full scratchpad log publishes (R49, R50, R51). -/
def State.logScr (s : State) (t off : Nat) : State :=
  if !s.guardOpen t then s
  else
    let tm := s.team t
    if (get? tm.guard.scrLog (off / 64)).isSome then s
    else
      let part := s.partOf (s.grid tm.grid)
      let used := (s.guardedOn tm.core part).foldl (fun a e => a + e.2.guard.scrLog.length) 0
      if (s.part part).scr / 16 / 64 ≤ used then s.publish t
      else s.setTeam t { tm with guard := { tm.guard with scrLog := put tm.guard.scrLog (off / 64) (tm.scr.readN (off / 64 * 64) 64) } }

/-- Copy a row into the shadow pool at its first write in the interval; a full pool publishes (R49, R50, R51).
Rows that the checkpoint does not hold need no copy, nor do those of a group that stands in the slot of one that has gone since. An argument row is its
caller's row (R181). -/
def State.logRow (s : State) (k d' r' : Nat) : State :=
  let t := (s.grp k).team
  if !s.guardOpen t then s
  else
    let tm := s.team t
    let d := ((s.grp k).ownerRow d' r').1
    let r := ((s.grp k).ownerRow d' r').2
    let held := match tm.guard.ckpt.bind fun c => get? c.groups k with
      | some g => decide (d < g.frames.length) && decide (if r < 64 then r < (g.frameAt d).nv else r - 64 < (g.frameAt d).nm)
      | none => false
    if !held || tm.guard.held.any (fun h => h.1 == k) || tm.guard.shadow.contains (k, d, r) then s
    else
      let part := s.partOf (s.grid tm.grid)
      let used := (s.guardedOn tm.core part).foldl (fun a e => a + e.2.guard.shadow.length) 0
      if (s.part part).rows / 8 ≤ used then s.publish t
      else s.setTeam t { tm with guard := { tm.guard with shadow := tm.guard.shadow ++ [(k, d, r)] } }

/-- Write scratchpad bytes of a team; a bank word that is replaced whole loses its poison (R434, R435). -/
def Team.scrWrite (t : Team) (off : Nat) (bs : List Byte) (whole : Nat → Bool) : Team :=
  { t with scr := t.scr.writeN off bs, scrPx := t.scrPx.filter fun w => !(whole w) }

/-- Every byte of a unit is among the bytes that one instruction writes. -/
def coversUnit (size : Nat) (addrs : List (Nat × Nat × Nat)) (cls a unit : Nat) : Bool :=
  (List.range size).all fun i => addrs.contains (cls, a, unit * size + i)

/-- The bytes that a list of stores writes. -/
def writtenAt (items : List (Acc × List Byte)) : List (Nat × Nat × Nat) :=
  items.flatMap fun it => (List.range it.1.n).map it.1.tgt.at_

/-- Perform one store at its target: the L1 for global and visitor-cached lines, otherwise the target itself (R66). -/
def State.storeOne (s : State) (t c : Nat) (fused : Bool) (asn : Option Nat) (all : List (Nat × Nat × Nat)) (a : Acc) (bs : List Byte) : State :=
  match a.tgt with
  | .dev pa ms =>
    let k := lineKey false pa
    let s := s.logLine t c pa a.va ms
    let s := s.l1Store (l1Core fused c k) k ms (bs.zipIdx.map fun b => (pa % 128 + b.2, b.1)) fun x => coversUnit 32 all 0 0 (pa / 128 * 4 + x)
    s.markDirty asn a.va
  | .host h true =>
    let k := lineKey true h
    let s := s.l1Store (l1Core fused c k) k false (bs.zipIdx.map fun b => (h % 128 + b.2, b.1)) fun x => coversUnit 32 all 1 0 (h / 128 * 4 + x)
    s.markDirty asn a.va
  | .host h false =>
    let s := s.hostWrite h bs
    (s.toHost (dieOf c)).markDirty asn a.va
  | .scr q off =>
    let s := if q = t then s.logScr t off else s
    s.setTeam q ((s.team q).scrWrite off bs fun w => coversUnit 4 all 2 q w)
  | .par g d off =>
    let s := s.setParlour g d ((s.parlour g d).writeN off bs)
    { s with mem := { s.mem with parPx := s.mem.parPx.filter fun p => !(p.1 == g && p.2.1 == d && coversUnit 32 all 3 (g * 4 + d) p.2.2) } }
  | .zero => s

/-- Perform the stores of one instruction, lanes in ascending order (R207). -/
def State.storeAll (s : State) (t c : Nat) (fused : Bool) (asn : Option Nat) (items : List (Acc × List Byte)) : State :=
  items.foldl (fun s it => s.storeOne t c fused asn (writtenAt items) it.1 it.2) s

/-- Perform a `poison` of one line (R452). -/
def State.poisonOne (s : State) (t c : Nat) (fused : Bool) (asn : Option Nat) (a : Acc) : State :=
  match a.tgt with
  | .dev pa ms =>
    let k := lineKey false pa
    let s := s.logLine t c pa a.va ms
    let v := s.viewLine (l1Core fused c k) k ms
    let s := s.l1Store (l1Core fused c k) k ms (v.zipIdx.map fun b => (b.2, b.1)) fun _ => false
    let co := s.core (l1Core fused c k)
    let s := s.setCore (l1Core fused c k) { co with l1 := put co.l1 k { get {} co.l1 k with px := [0, 1, 2, 3] } }
    s.markDirty asn a.va
  | .scr q off =>
    let s := if q = t then (s.logScr t (off / 128 * 128)).logScr t (off / 128 * 128 + 64) else s
    let tm := s.team q
    s.setTeam q { tm with scrPx := (List.range 32).foldl (fun p i => insertNat (off / 128 * 32 + i) p) tm.scrPx }
  | _ => s

/-- A byte of a target as a core reads it, its line filled into the L1 where that is its path (R66, R67, R72 to R75). -/
def State.readByte (s : State) (c : Nat) (fused : Bool) (a : Acc) (i : Nat) : Byte × Bool :=
  let cached (k o : Nat) (ms : Bool) : Byte × Bool :=
    let l := get {} (s.core (l1Core fused c k)).l1 k
    if l.valid o then ((get (0, false) l.bytes o).1, l.px.contains (o / 32)) else s.l2Byte (dieOf c) k o ms
  match a.tgt with
  | .dev pa ms => cached (lineKey false pa) (pa % 128 + i) ms
  | .host h true => cached (lineKey true h) (h % 128 + i) false
  | .host h false => (s.hostRead (h + i), false)
  | .scr q off => ((s.team q).scr.read (off + i), (s.team q).scrPx.contains ((off + i) / 4))
  | .par g d off => ((s.parlour g d).read (off + i), s.mem.parPx.contains (g, d, (off + i) / 32))
  | .zero => (0, false)

/-- Some byte that a line holds is clean. -/
def Line.anyClean (l : Line) : Bool := l.bytes.any fun b => !b.2.2

/-- Bring in the line of an access when a byte that it reads is not held (R67). A line in which clean bytes stand beside bytes that it lacks is evicted
first, so that the fetch finds the line in one piece (R68, R290, LOG 6). -/
def State.fetchFor (s : State) (c : Nat) (fused : Bool) (a : Acc) : State :=
  let go (k o : Nat) (ms : Bool) : State :=
    let cc := l1Core fused c k
    let l := get {} (s.core cc).l1 k
    if (List.range a.n).all fun i => l.valid (o + i) then s
    else (if l.anyClean then s.l1Drop cc k else s).fill cc k ms
  match a.tgt with
  | .dev pa ms => go (lineKey false pa) (pa % 128) ms
  | .host h true => go (lineKey true h) (h % 128) false
  | .host _ false => s.hostTrip (dieOf c)
  | _ => s

/-- The youngest older store of the group to a byte (R66): the byte, or that it is poisoned. -/
def fifoByte (fifo : List FEnt) (seq : Nat) (at_ : Nat × Nat × Nat) : Option (Byte × Bool) :=
  (fifo.filter fun e => e.seq < seq).foldl (fun r e =>
    match e.op with
    | .store items => items.foldl (fun r it =>
        let b := it.1.tgt.at_ 0
        if b.1 == at_.1 && b.2.1 == at_.2.1 && decide (b.2.2 ≤ at_.2.2) && decide (at_.2.2 < b.2.2 + it.1.n)
        then some (it.2.getD (at_.2.2 - b.2.2) 0, false) else r) r
    | .poison items => items.foldl (fun r a =>
        let b := a.tgt.at_ 0
        if b.1 == at_.1 && b.2.1 == at_.2.1 && b.2.2 / 128 == at_.2.2 / 128 then some (0, true) else r) r
    | _ => r) none

/-- The bytes of an access with a poison mark each, forwarded from the group's store FIFO where it holds them. -/
def State.readAcc (s : State) (c : Nat) (fused : Bool) (fifo : List FEnt) (seq : Nat) (a : Acc) : List (Byte × Bool) :=
  (List.range a.n).map fun i => match fifoByte fifo seq (a.tgt.at_ i) with
    | some b => b
    | none => s.readByte c fused a i

/-- The bytes of an access that does not go through an L1: an engine's, the host's or an atomic's (R75, R77). -/
def State.directByte (s : State) (a : Acc) (i : Nat) : Byte × Bool :=
  match a.tgt with
  | .dev pa _ => (s.mem.dev.read (pa + i), s.mem.devPx.contains ((pa + i) / 32))
  | .host h _ => (s.hostRead (h + i), false)
  | _ => s.readByte 0 false a i

/-- Write bytes at the home of their target; `whole` as in `storeOne`. -/
def State.directWrite (s : State) (a : Acc) (bs : List Byte) (all : List (Nat × Nat × Nat)) : State :=
  match a.tgt with
  | .dev pa _ =>
    let s := { s with mem := { s.mem with dev := s.mem.dev.writeN pa bs } }
    { s with mem := { s.mem with devPx := s.mem.devPx.filter fun x => !coversUnit 32 all 0 0 x } }
  | .host h _ => s.hostWrite h bs
  | .scr q off => s.setTeam q ((s.team q).scrWrite off bs fun w => coversUnit 4 all 2 q w)
  | .par g d off =>
    let s := s.setParlour g d ((s.parlour g d).writeN off bs)
    { s with mem := { s.mem with parPx := s.mem.parPx.filter fun p => !(p.1 == g && p.2.1 == d && coversUnit 32 all 3 (g * 4 + d) p.2.2) } }
  | .zero => s

/-- Write back and drop a core's and its die's copies of the line of an access (R77). -/
def State.dropCopies (s : State) (c : Nat) (fused : Bool) (a : Acc) : State :=
  let go (k : Nat) : State := (s.l1Drop (l1Core fused c k) k).visitorDrop (dieOf c) k
  match a.tgt with
  | .dev pa _ => go (lineKey false pa)
  | .host h _ => go (lineKey true h)
  | _ => s

/-- Perform one lane's atomic (R76, R222): the old value and whether the location is poisoned, in which case it stays as it is (R447). -/
def State.atomOne (s : State) (t c : Nat) (fused : Bool) (asn : Option Nat) (op : AtomOp) (wide : Bool) (a : Acc) (y z : W64) :
    State × W64 × Bool :=
  let s := s.dropCopies c fused a
  let s := match a.tgt with
    | .dev pa ms => (s.lineTrip (dieOf c) pa ms).logLine t c pa a.va ms
    | .host _ _ => s.hostTrip (dieOf c)
    | .scr q off => if q = t then s.logScr t off else s
    | _ => s
  let bs := (List.range a.n).map (s.directByte a)
  let old : W64 := BitVec.ofNat 64 (leNat (bs.map Prod.fst))
  let px := bs.any Prod.snd
  if px then (s, old, true)
  else
    let s := s.directWrite a (leBytes a.n (atomNew wide op old y z).toNat) ((List.range a.n).map a.tgt.at_)
    let s := match a.tgt with
      | .dev _ _ | .host _ _ => s.markDirty asn a.va
      | _ => s
    (s, old, false)

/-! ### The recorder of a recordable team (R317, R318) -/

/-- Join a granule into ascending ranges (first, last). -/
def joinRange (g : Nat) : List (Nat × Nat) → List (Nat × Nat)
  | [] => [(g, g)]
  | (a, b) :: t =>
    if g + 1 < a then (g, g) :: (a, b) :: t
    else if g + 1 = a then (g, b) :: t
    else if g ≤ b then (a, b) :: t
    else if g = b + 1 then
      match t with
      | (a', b') :: t' => if a' = g + 1 then (a, b') :: t' else (a, g) :: (a', b') :: t'
      | [] => [(a, g)]
    else (a, b) :: joinRange g t

/-- The smallest gap between neighbours, the lower pair when gaps are equal: its place. -/
def smallestGap (rs : List (Nat × Nat)) : Nat :=
  match leastBy (fun i => (rs.getD (i + 1) (0, 0)).1 - (rs.getD i (0, 0)).2) (List.range (rs.length - 1)) with
  | some i => i
  | none => 0

/-- Record the read of a granule; a sixteenth range merges two neighbours, and a range beyond 2^28 granules is not formed but sets WHOLE. The range of
the new read takes part in the choice of the gap (LOG 128). -/
def Recorder.read (r : Recorder) (g : Nat) : Recorder :=
  if r.whole then r
  else
    let rs := joinRange g r.ranges
    if rs.any fun x => decide (2 ^ 28 < x.2 - x.1 + 1) then { r with whole := true }
    else if rs.length ≤ 15 then { r with ranges := rs }
    else
      let i := smallestGap rs
      let a := (rs.getD i (0, 0)).1
      let b := (rs.getD (i + 1) (0, 0)).2
      if 2 ^ 28 < b - a + 1 then { r with whole := true }
      else { r with ranges := rs.take i ++ (a, b) :: rs.drop (i + 2), merged := true }

/-- Record what an access reads (R317). -/
def State.recordRead (s : State) (t : Nat) (a : Acc) : State :=
  let tm := s.team t
  if !(s.grid tm.grid).recordable then s
  else match a.tgt with
  | .dev _ _ => s.setTeam t { tm with recd := tm.recd.read (a.va / 4096) }
  | .host _ _ => s.setTeam t { tm with recd := { tm.recd with host := true } }
  | _ => s

/-! ### Accesses of firmware, of the hub and of the host -/

/-- Targets of `n` bytes at a virtual address of an address space, byte by byte, as firmware reaches them (R367): the first address that
a page refuses, or the target of each byte. -/
def State.fwBytes (s : State) (asn : Option Nat) (write : Bool) (va : Nat) : Nat → Except Nat (List Acc)
  | 0 => .ok []
  | n + 1 =>
    if 2 ^ 47 ≤ va then .error va
    else match s.walk asn va with
    | .bad _ _ => .error va
    | .ok e pa =>
      if pteP e || (write && !pteW e) then .error va
      else
        let a : Acc := ⟨0, va, if pteTgt e ≠ 0 then .host pa (pteTgt e == 2) else .dev pa (pteMs e), 1⟩
        match s.fwBytes asn write (va + 1) n with
        | .ok l => .ok (a :: l)
        | .error v => .error v

/-- An access reaches host memory. -/
def hostIn (as : List Acc) : Bool := as.any fun a => match a.tgt with
  | .host _ _ => true
  | _ => false
/-- A read ends in an error completion of the host's (R438). -/
def State.fwFails (s : State) (as : List Acc) : Bool := hostIn as && Config.hostFails s.fresh
/-- A read or write of firmware's at a virtual address would reach host memory. -/
def State.fwHost (s : State) (asn : Option Nat) (write : Bool) (va n : Nat) : Bool := match s.fwBytes asn write va n with
  | .ok as => hostIn as
  | .error _ => false

/-- A read or write of firmware's waits for the link (R462). -/
def State.fwHeld (s : State) (asn : Option Nat) (write : Bool) (va n : Nat) : Bool := s.linkHeld && s.fwHost asn write va n

/-- The bytes of a read of firmware's, none where one is poisoned or the host answers with an error completion (R438, LOG 17). -/
def State.fwTake (s : State) (as : List Acc) : Option (List Byte) :=
  let bs := as.map fun a => s.directByte a 0
  if s.fwFails as || bs.any Prod.snd then none else some (bs.map Prod.fst)

/-- Read bytes as firmware does: refused by a page, or poisoned, or the bytes. -/
def State.fwRead (s : State) (asn : Option Nat) (va n : Nat) : Option (List Byte) :=
  match s.fwBytes asn false va n with
  | .error _ => none
  | .ok as => s.fwTake as

/-- The lines of accesses that take place at their homes take places in the home L2s (R72, R75). -/
def State.homeUse (s : State) (as : List Acc) : State :=
  let lines := as.foldl (fun l a => match a.tgt with
    | .dev pa ms => if l.contains (pa / 128, ms) then l else l ++ [(pa / 128, ms)]
    | _ => l) []
  lines.foldl (fun s x => s.homeRoom (x.1 * 128) x.2) s

/-- Write bytes at their homes through an address space, marking the dirty map (R322). -/
def State.fwPut (s : State) (asn : Option Nat) (as : List Acc) (bs : List Byte) : State :=
  let all := as.map fun a => a.tgt.at_ 0
  (as.zip bs).foldl (fun s p => (s.directWrite p.1 [p.2] all).markDirty asn p.1.va) (s.homeUse as)

/-- The dies whose memory an access reaches. -/
def diesOf (as : List Acc) : List Nat :=
  (List.range 4).filter fun d => as.any fun a => match a.tgt with
    | .dev pa _ => homeDie pa == d
    | _ => false
/-- A write of a die's firmware, or of the hub, goes to the dies and to the host that it reaches (R23, R24, R361). -/
def State.fwSend (s : State) (die : Nat) (as : List Acc) : State :=
  let s := (diesOf as).foldl (fun s d => s.msg die d) s
  if hostIn as then s.toHost die else s
/-- A read of a die's firmware, or of the hub, goes there and comes back; its lines take their places at home (R23, R24, R72, R361). -/
def State.fwTrip (s : State) (die : Nat) (as : List Acc) : State :=
  let s := ((diesOf as).foldl (fun s d => (s.msg die d).msg d die) s).homeUse as
  if hostIn as then { s.hostTrip die with fresh := s.fresh + 1 } else s
/-- The messages of a read of firmware's at a virtual address. -/
def State.fwAsk (s : State) (die : Nat) (asn : Option Nat) (va n : Nat) : State :=
  match s.fwBytes asn false va n with
  | .error _ => s
  | .ok as => s.fwTrip die as

/-- Write bytes as the firmware of a die does, or the hub; none when a page refuses. -/
def State.fwWrite (s : State) (die : Nat) (asn : Option Nat) (va : Nat) (bs : List Byte) : Option State :=
  match s.fwBytes asn true va bs.length with
  | .error _ => none
  | .ok as => some ((s.fwSend die as).fwPut asn as bs)

/-- Write bytes as firmware does where they are not poisoned; none when a page refuses or a unit is poisoned (R464). -/
def State.fwWriteSound (s : State) (die : Nat) (asn : Option Nat) (va : Nat) (bs : List Byte) : Option State :=
  match s.fwBytes asn true va bs.length with
  | .error _ => none
  | .ok as => if as.any fun a => (s.directByte a 0).2 then none else some ((s.fwSend die as).fwPut asn as bs)

/-! ### Instruction fetch (R62, R64, R111) -/

/-- The kind with which a fetch of one parcel fails, with the walk's bits of aux, or the parcel's physical address. -/
def State.fetchAt (s : State) (c : Nat) (asn : Option Nat) (pc : Nat) : Except (Nat × Nat) Tgt :=
  if !canonical pc then .error (0x0601, 0)
  else if 2 ^ 47 ≤ pc then .error (0x0609, 0)
  else match s.xlate c asn pc with
  | .bad l r => .error (0x0701, l * 1024 + r * 8192)
  | .ok e pa =>
    if !pteX e then .error (0x0609, 0)
    else if pteP e then .error (0x0606, 0)
    else .ok (if pteTgt e ≠ 0 then .host pa (pteTgt e == 2) else .dev pa (pteMs e))

/-- The line of a parcel: its key, and the parcel's place in it. -/
def Tgt.line (t : Tgt) : Nat × Nat :=
  match t with
  | .dev pa _ => (lineKey false pa, pa % 128)
  | .host a _ => (lineKey true a, a % 128)
  | _ => (0, 0)

/-- The line that the instruction cache of a core holds for a grid, when a fetch uses it: a fetch may also bring the line in anew (R64, LOG 94). -/
def State.iline (s : State) (ic grid k : Nat) : Option ILine :=
  ((get [] s.icaches ic).find? fun x => x.grid == grid && x.key == k).filter fun _ => Config.icacheHit s.issues k

/-- The line as a fetch sees it: from the instruction cache, or through the L2 of the page's home die (R64); an error completion of the host is poison
(R438, LOG 17). -/
def State.codeLine (s : State) (ic grid k : Nat) : ILine :=
  match s.iline ic grid k with
  | some x => x
  | none => { grid := grid, key := k, bytes := lineOffs.map (s.homeByte k)
              px := (List.range 4).filter fun x => s.homePx k x || (lineHost k && Config.hostFails s.fresh) }

/-- A line that the instruction cache does not give comes from its home, another die's or the host's (R23, R64, R361). -/
def State.codeTrip (s : State) (ic grid k : Nat) (ms : Bool) : State :=
  if (s.iline ic grid k).isSome then s
  else if lineHost k then { s.hostTrip (dieOf ic) with fresh := s.fresh + 1 }
  else s.lineTrip (dieOf ic) (lineAddr k) ms

/-- The instruction cache keeps the line that a fetch has used (R64), but for one that came with an error completion. -/
def State.keepLine (s : State) (ic : Nat) (x : ILine) : State :=
  if lineHost x.key && x.px != [] then s
  else { s with icaches := put s.icaches ic (x :: (get [] s.icaches ic).filter fun y => !(y.grid == x.grid && y.key == x.key)) }

/-- The two bytes of a parcel, with their poison. -/
def State.parcel (s : State) (ic grid : Nat) (t : Tgt) : Nat × Bool :=
  let x := s.codeLine ic grid t.line.1
  ((x.bytes.getD t.line.2 0).toNat + 256 * (x.bytes.getD (t.line.2 + 1) 0).toNat, x.px.contains (t.line.2 / 32))

/-- Fetch the instruction at an address through instruction cache `ic`: the fault's kind and bits of aux, or the word and its length in bytes. -/
def State.fetchBy (s : State) (c ic grid : Nat) (asn : Option Nat) (pc : Nat) : Except (Nat × Nat) (Nat × Nat) :=
  match s.fetchAt c asn pc with
  | .error e => .error e
  | .ok t =>
    let p := s.parcel ic grid t
    if p.1 % 2 = 0 then (if p.2 then .error (0x0D01, 0) else .ok (p.1, 2))
    else match s.fetchAt c asn (pc + 2) with
    | .error e => .error e
    | .ok t2 =>
      let q := s.parcel ic grid t2
      if p.2 || q.2 then .error (0x0D01, 0) else .ok (p.1 + 65536 * q.1, 4)

/-- The core whose instruction cache a group fetches through: its own, or the study core that holds it. -/
def icacheOf (k : Nat) (g : Group) : Nat := if g.study.phase = 2 then g.study.core else coreOf k

/-- The fetch of a group's next instruction (R62, R64, R111). -/
def State.fetch (s : State) (c : Ctx) : Except (Nat × Nat) (Nat × Nat) :=
  s.fetchBy (coreOf c.key) (icacheOf c.key c.g) c.g.grid (s.asnOf (s.gridOf c.g).vf) c.pc.toNat

/-- A parcel of the instruction is to come from the host, and the link does not carry it now (R462). -/
def State.fetchHeld (s : State) (c : Ctx) : Bool :=
  let at_ (pc : Nat) : Option Tgt := (s.fetchAt (coreOf c.key) (s.asnOf (s.gridOf c.g).vf) pc).toOption
  let out (t : Tgt) : Bool := lineHost t.line.1 && (s.iline (icacheOf c.key c.g) c.g.grid t.line.1).isNone
  s.linkHeld && (at_ c.pc.toNat).any fun t => out t || ((s.parcel (icacheOf c.key c.g) c.g.grid t).1 % 2 == 1 && (at_ (c.pc.toNat + 2)).any out)

/-- Its page is memory-side (R73). -/
def Tgt.ms : Tgt → Bool
  | .dev _ ms => ms
  | _ => false

/-- What the fetch of an instruction leaves: its misses start walks (R81), lines come from their homes, and the instruction cache keeps them (R64); both
parcels of a 32-bit instruction come with one line but where a line ends between them. -/
def State.fetched (s : State) (c : Ctx) : State :=
  let asn := s.asnOf (s.gridOf c.g).vf
  let keep (t : State) (pc : Nat) : State :=
    let t := t.miss (coreOf c.key) asn pc
    match s.fetchAt (coreOf c.key) asn pc with
    | .ok x => (t.codeTrip (icacheOf c.key c.g) c.g.grid x.line.1 x.ms).keepLine (icacheOf c.key c.g) (s.codeLine (icacheOf c.key c.g) c.g.grid x.line.1)
    | .error _ => t
  match s.fetchAt (coreOf c.key) asn c.pc.toNat with
  | .ok x =>
    let one := (s.parcel (icacheOf c.key c.g) c.g.grid x).1 % 2 == 0 || c.pc.toNat % 128 != 126
    if one then keep s c.pc.toNat else keep (keep s c.pc.toNat) (c.pc.toNat + 2)
  | .error _ => keep s c.pc.toNat

/-- The instruction caches are emptied of a grid's lines (R64). -/
def State.dropCode (s : State) (grid : Nat) : State := { s with icaches := s.icaches.map fun e => (e.1, e.2.filter fun x => x.grid != grid) }

end Sys2Proof.Machine
end

