-- ==== Sys2Proof/Machine/Record.lean ====
section
/-! DEFINITION. Fault records and the paths by which they reach the host: exception queues, error rings, the service ring, command status
(R364, R367, R375, R396 to R404, R456, R464). -/

namespace Sys2Proof.Machine

/-- A fault record (R397). -/
structure Rec where
  cls : Nat
  kind : Nat
  die : Nat := 4
  core : Nat := 255
  slot : Nat := 0
  flags : Nat := 0
  grid : Nat := 0
  team : Nat := 0
  pc : Nat := 0
  mask : Nat := 0
  addr : Nat := 0
  aux : Nat := 0
  count : Nat := 0
  serial : Nat := 0
  vf : Nat := 0
  part : Nat := 0
  tag : Nat := 0

/-- The 64 bytes of a record; its cause is kind div 256 (R397, R398, R410). -/
def Rec.bytes (r : Rec) : List Byte :=
  leBytes 1 r.cls ++ leBytes 1 (r.kind / 256) ++ leBytes 2 r.kind ++ leBytes 1 r.die ++ leBytes 1 r.core ++ leBytes 1 r.slot ++
  leBytes 1 r.flags ++ leBytes 4 r.grid ++ leBytes 4 r.team ++ leBytes 8 r.pc ++ leBytes 8 r.mask ++ leBytes 8 r.addr ++
  leBytes 8 r.aux ++ leBytes 8 r.count ++ leBytes 2 r.serial ++ leBytes 1 r.vf ++ leBytes 1 r.part ++ leBytes 4 r.tag

/-- Raise message interrupt `v` of a VF (R361). Firmware routes vectors 3 to 63 as the host asks, by no command that the spec gives (LOG 131). -/
def State.interrupt (s : State) (vf v : Nat) : State := (s.setVf vf { s.vf vf with ints := (s.vf vf).ints ++ [v] }).sendFlit

/-- Raise an interrupt once for each of n advances of a ring (R402). -/
def State.interrupts (s : State) (vf v : Nat) : Nat → State
  | 0 => s
  | n + 1 => (s.interrupt vf v).interrupts vf v n

/-- A queue of a VF (R362). -/
def State.queue (s : State) (vf q : Nat) : Queue := get {} (s.vf vf).queues q
/-- Replace a queue. -/
def State.setQueue (s : State) (vf q : Nat) (x : Queue) : State := s.setVf vf { s.vf vf with queues := put (s.vf vf).queues q x }

/-- The 64 bytes of a control block (R364). -/
def Qcb.bytes (b : Qcb) : List Byte :=
  leBytes 8 b.base ++ leBytes 4 b.size ++ leBytes 4 b.exsize ++ leBytes 8 b.exbase ++ leBytes 8 b.head ++ leBytes 8 b.done ++
  leBytes 4 b.seq.toNat ++ leBytes 1 ((if b.enabled then 1 else 0) + (if b.stopped then 2 else 0)) ++ leBytes 3 0 ++
  leBytes 8 b.exprod ++ leBytes 8 b.tail

/-- The control block that 64 bytes hold (R364). -/
def Qcb.ofBytes (l : List Byte) : Qcb :=
  { base := fieldAt l 0 8, size := fieldAt l 8 4, exsize := fieldAt l 12 4, exbase := fieldAt l 16 8, head := fieldAt l 24 8,
    done := fieldAt l 32 8, seq := BitVec.ofNat 32 (fieldAt l 40 4), enabled := fieldAt l 44 1 % 2 == 1,
    stopped := fieldAt l 44 1 / 2 % 2 == 1, exprod := fieldAt l 48 8, tail := fieldAt l 56 8 }

/-- The safe-function die: die 0, or die 1 when die 0 is out (R378, R470). -/
def Module.safeDie (m : Module) : Nat := if m.dieOff.getLsbD 0 then 1 else 0

/-- The die whose firmware core serves a queue (R372, R466). -/
def State.serverDie (s : State) (vf q : Nat) : Option Nat :=
  if s.mod_.stage = 1 then some s.mod_.safeDie
  else if s.mod_.stage = 2 then
    ((List.range 4).map fun i => (vf + q + i) % 4).find? fun d => (s.die d).inService && (s.die d).online && (s.die d).fw != 2
  else none

/-- The die whose firmware core writes for a queue; the hub's management core while none serves it. -/
def State.writerDie (s : State) (vf q : Nat) : Nat := (s.serverDie vf q).getD 4

/-- Firmware updates bytes 24 to 63 of a control block: seq rises by 2 over the update, and the shadow copy follows (R364). -/
def State.blockUpdate (s : State) (vf q : Nat) (f : Qcb → Qcb) : State :=
  let x := s.queue vf q
  let cb := { f x.cb with seq := x.cb.seq + 2 }
  let s := s.setQueue vf q { x with cb := cb, shadow := cb, shadowPx := false }
  match s.fwWrite (s.writerDie vf q) (s.asnOf vf) (x.addr.toNat + 24) (cb.bytes.drop 24) with
  | some s => s
  | none => s

/-- What a ring in host memory writes of the records that it holds back, while it has room (R402): the writes, and the ring after them. -/
def Ring.flush (r : Ring) : List (List Byte) → List (Nat × List Byte) × Ring
  | [] => ([], { r with held := [] })
  | b :: t =>
    if !r.set || r.size ≤ r.prod - r.cons then ([], { r with held := b :: t })
    else
      let x := Ring.flush { r with prod := r.prod + 1 } t
      ((r.base + 64 * (r.prod % r.size), b) :: x.1, x.2)
/-- Write records to host memory, each in a flit (R361). -/
def State.hostPuts (s : State) (ws : List (Nat × List Byte)) : State := ws.foldl (fun s w => (s.hostWrite w.1 w.2).sendFlit) s

/-- The link carries records (R456, R461). -/
def State.linkUp (s : State) : Bool := s.mod_.link.state != 3

/-- Keep a record in the non-volatile store while the link is down (R456). -/
def State.keep (s : State) (b : List Byte) : State :=
  { s with mod_ := { s.mod_ with nv := { s.mod_.nv with kept := s.mod_.nv.kept ++ [b] } } }

/-- Deliver held records of a VF's error ring, while the link carries them (R456). -/
def State.errFlush (s : State) (vf : Nat) : State :=
  if s.linkHeld then s
  else
  let v := s.vf vf
  let r := Ring.flush v.err v.err.held
  let s := s.hostPuts r.1
  let s := s.setVf vf { s.vf vf with err := r.2 }
  s.interrupts vf 2 (r.2.prod - v.err.prod)

/-- Deliver held records of the physical function's ring, while the link carries them (R456). -/
def State.pfFlush (s : State) : State :=
  if s.linkHeld then s
  else
  let r := Ring.flush s.mod2.pfErr s.mod2.pfErr.held
  let n := s.mod2.pfErr.prod
  let s := { s with mod2 := { s.mod2 with pfErr := r.2 } }.hostPuts r.1
  s.interrupts 128 2 (r.2.prod - n)

/-- Write a record to the physical function's ring; class 0 faults are only counted, saturating (R401, R402). -/
def State.pfPush (s : State) (r : Rec) : State :=
  if r.cls = 0 then { s with mod2 := { s.mod2 with pferrc0 := if s.mod2.pferrc0 = -1 then s.mod2.pferrc0 else s.mod2.pferrc0 + 1 } }
  else if !s.linkUp then s.keep r.bytes
  else { s with mod2 := { s.mod2 with pfErr := { s.mod2.pfErr with held := s.mod2.pfErr.held ++ [r.bytes] } } }.pfFlush

/-- Write a record to a VF's error ring (R401, R402); the physical function's is its own. A class 0 record is written only with C0 set, and dropped when the ring is full. -/
def State.errPush (s : State) (vf : Nat) (r : Rec) : State :=
  let v := s.vf vf
  if vf = 128 then s.pfPush r
  else if !s.linkUp then s.keep r.bytes
  else if r.cls = 0 && !v.c0 then s
  else if r.cls = 0 && v.err.set && decide (v.err.size ≤ v.err.prod - v.err.cons) then
    s.setVf vf { v with lost := if v.lost = -1 then v.lost else v.lost + 1 }
  else (s.setVf vf { v with err := { v.err with held := v.err.held ++ [r.bytes] } }).errFlush vf

/-- A record that its exception queue cannot take goes to the error ring of the function (R464). -/
def State.errTake (s : State) (vf : Nat) (b : List Byte) : State :=
  if vf = 128 then { s with mod2 := { s.mod2 with pfErr := { s.mod2.pfErr with held := s.mod2.pfErr.held ++ [b] } } }.pfFlush
  else (s.setVf vf { s.vf vf with err := { (s.vf vf).err with held := (s.vf vf).err.held ++ [b] } }).errFlush vf

/-- Write the records that an exception queue holds back (R403), while the link carries them (R456); one that cannot be written goes to the VF's error
ring and stops the queue (R464). -/
def State.excFlush (s : State) (vf q : Nat) : List (List Byte) → State
  | [] => s.setQueue vf q { s.queue vf q with held := [] }
  | b :: t =>
    let x := s.queue vf q
    let a := x.cb.exbase + 64 * (x.cb.exprod % x.cb.exsize)
    if !x.cb.enabled || x.cb.exsize = 0 || x.cb.exprod - x.ack = x.cb.exsize || s.fwHeld (s.asnOf vf) true a 64 then s.setQueue vf q { x with held := b :: t }
    else match s.fwWrite (s.writerDie vf q) (s.asnOf vf) a b with
    | some s => ((s.blockUpdate vf q fun c => { c with exprod := c.exprod + 1 }).interrupt vf 2).excFlush vf q t
    | none =>
      ((s.errTake vf b).blockUpdate vf q fun c => { c with stopped := true }).excFlush vf q t

/-- Write a record to the exception queue of a command queue (R403). -/
def State.excPush (s : State) (vf q : Nat) (r : Rec) : State :=
  if !s.linkUp then s.keep r.bytes
  else
    let x := s.queue vf q
    s.excFlush vf q (x.held ++ [r.bytes])

/-- Flags of a record (R397). -/
def flagBits (priv precise study guarded escal answer : Bool) (origin : Nat) : Nat :=
  (if priv then 1 else 0) + (if precise then 2 else 0) + (if study then 4 else 0) + (if guarded then 8 else 0) +
  (if escal then 16 else 0) + (if answer then 32 else 0) + origin * 64

/-- The number that %grid reads for a grid key. -/
def State.gridNum (s : State) (k : Nat) : Nat := (s.grid k).num.toNat

/-- A record about a group, with the serial of its slot (R397). -/
def State.recOf (s : State) (k : Nat) (cls : Nat) (f : Flt) (pc : W64) (flags : Nat) : Rec :=
  let g := s.grp k
  let gr := s.gridOf g
  let c := coreOf k
  { cls := cls, kind := f.kind, die := dieOf c, core := c % 64, slot := slotOf k, flags := flags, grid := gr.num.toNat,
    team := (s.team g.team).lin, pc := pc.toNat, mask := f.mask.toNat, addr := f.addr.toNat, aux := f.aux.toNat,
    count := (s.die (dieOf c)).count.toNat, serial := (get 0 (s.core c).serials (slotOf k)).toNat, vf := gr.vf, part := s.partOf gr }

/-- The flags of a group's record, for an event on a study core or not (R397, R422). -/
def State.flagsAt (s : State) (k : Nat) (study precise escal answer : Bool) : Nat :=
  let g := s.grp k
  flagBits g.regs.mode precise study (s.guardOpen g.team) escal answer 0
/-- The flags of a record about a group where it is now. -/
def State.groupFlags (s : State) (k : Nat) (precise escal answer : Bool) : Nat := s.flagsAt k ((s.grp k).study.phase == 2) precise escal answer

/-- Write a record to a grid's home queue. -/
def State.homePush (s : State) (grid : Nat) (r : Rec) : State := s.excPush (s.grid grid).vf (s.grid grid).home r

/-- A grid makes progress (R428). -/
def State.progress (s : State) (k : Nat) : State := s.setGrid k { s.grid k with run := { (s.grid k).run with progress := true } }

/-- Write a record of a contained unit: to the home queue and to the VF's error ring (R401). -/
def State.contPush (s : State) (grid : Nat) (r : Rec) : State := (s.homePush grid { r with cls := 3 }).errPush (s.grid grid).vf { r with cls := 3 }

/-- A record about a team or grid from the distributor or the management core (origin 11). -/
def State.gridRec (s : State) (grid team cls kind addr aux : Nat) : Rec :=
  let gr := s.grid grid
  { cls := cls, kind := kind, flags := flagBits false false false false false false 3, grid := gr.num.toNat, team := team, addr := addr, aux := aux,
    count := (s.die 4).count.toNat, vf := gr.vf, part := s.partOf gr }

/-- The next serial of a slot is taken: the value before, and the state after (R192, R397). -/
def State.takeSerial (s : State) (k : Nat) : Nat × State :=
  let co := s.core (coreOf k)
  let n := get 0 co.serials (slotOf k)
  (n.toNat, s.setCore (coreOf k) { co with serials := put co.serials (slotOf k) (n + 1) })

/-! ### Service ring (R375) -/

/-- Deliver held system-call records, while the link carries them (R462); vector 1 is raised when SVCPROD passes SVCCONS. -/
def State.svcFlush (s : State) (vf : Nat) : State :=
  if s.linkHeld then s
  else
  let v := s.vf vf
  let r := Ring.flush v.svc v.svc.held
  let s := s.hostPuts r.1
  let s := s.setVf vf { s.vf vf with svc := r.2 }
  if v.svc.prod ≤ v.svc.cons ∧ v.svc.cons < r.2.prod then s.interrupt vf 1 else s

/-- Write a system-call record, or hold it until the ring is set and has room. -/
def State.svcPush (s : State) (vf : Nat) (b : List Byte) : State :=
  let v := s.vf vf
  (s.setVf vf { v with svc := { v.svc with held := v.svc.held ++ [b] } }).svcFlush vf

/-! ### Commands (R365 to R369) -/

/-- A record of origin 10 (R472): `b` holds the command's bytes, none for a doorbell or the aperture; a STUDY of a group names a grid and a team. -/
def State.cmdRec (s : State) (vf kind addr aux : Nat) (b : List Byte) : Rec :=
  let names := cardByte b 0 == 8 && cardByte b 8 != 0 && decide (cardByte b 8 ≤ 3)
  { cls := 2, kind := kind, flags := 128, addr := addr, aux := aux, count := (s.die 4).count.toNat, vf := vf, part := (s.vf vf).part
    grid := if names then fieldAt b 12 4 else 0, team := if names then fieldAt b 16 8 else 0, tag := fieldAt b 4 4 }

/-- Firmware, or the hub, reads bytes for a queue of a VF (R23, R24, R361): what it finds, and the state with its messages. An error completion of the
host's is reported to that queue (R438, LOG 17). -/
def State.fwGet (s : State) (die vf q va n : Nat) : Option (List Byte) × State :=
  match s.fwBytes (s.asnOf vf) false va n with
  | .error _ => (none, s)
  | .ok as =>
    let t := s.fwTrip die as
    (s.fwTake as, if s.fwFails as then t.excPush vf q (t.cmdRec vf 0x0D06 va 0 []) else t)

/-- The virtual address of a command slot. -/
def Queue.slotAddr (x : Queue) (i : Nat) : Nat := x.cb.base + 64 * (i % x.cb.size)

/-- A firmware core serves the queue now: it is neither failed nor reloading. -/
def State.fwServes (s : State) (vf q : Nat) : Bool := match s.serverDie vf q with
  | some d => (s.die d).fw == 0
  | none => false

/-- The core that has started a command can go on with it (R372): one that has failed is replaced (R466). -/
def State.fwGoesOn (s : State) (vf q : Nat) (c : Cmd) : Bool :=
  if (s.die c.by_).fw = 2 ∨ !(s.die c.by_).online then s.fwServes vf q else (s.die c.by_).fw == 0

/-- Read the command slots from `i` on, at most n: those that can be read, whether one cannot (R464), and the state after. -/
def State.readSlots (s : State) (vf q : Nat) (x : Queue) (i : Nat) : Nat → List (List Byte) × Bool × State
  | 0 => ([], false, s)
  | n + 1 =>
    let g := s.fwGet (s.writerDie vf q) vf q (x.slotAddr i) 64
    match g.1 with
    | none => ([], true, g.2)
    | some b => let r := g.2.readSlots vf q x (i + 1) n; (b :: r.1, r.2)

/-- Fetch further commands, at most 16 ahead of `done` (R365, R369, R372), after taking a new tail if there is one: one update of the block. A slot that
cannot be read stops the queue (R464), and slots in host memory wait for the link (R462). -/
def State.fetchTo (s : State) (vf q : Nat) (tail : Option Nat) : State :=
  let x := s.queue vf q
  let t := tail.getD x.cb.tail
  let k := if s.fwServes vf q && x.cb.enabled && !x.cb.stopped && !s.fwHeld (s.asnOf vf) false (x.slotAddr x.cb.head) 64
    then min (t - x.cb.head) (x.cb.done + 16 - x.cb.head) else 0
  let r := s.readSlots vf q x x.cb.head k
  let n := r.1.length
  let s := r.2.2
  if tail.isNone && n == 0 && !r.2.1 then s
  else
    let x := s.queue vf q
    let cmds := r.1.zipIdx.foldl (fun m c => put m (x.cb.head + c.2) { bytes := c.1 }) x.cmds
    let s := (s.setQueue vf q { x with cmds := cmds, unread := x.unread || r.2.1 }).blockUpdate vf q fun c =>
      { c with tail := t, head := c.head + n, stopped := c.stopped || r.2.1 }
    if r.2.1 then s.excPush vf q (s.cmdRec vf 0x000C (x.slotAddr (x.cb.head + n)) 0 []) else s
/-- Fetch further commands. -/
def State.fetchCmds (s : State) (vf q : Nat) : State := s.fetchTo vf q none

/-- Advance `done` over the completed commands (R364, R368). -/
def State.advanceDone (s : State) (vf q : Nat) : Nat → State
  | 0 => s
  | n + 1 =>
    let x := s.queue vf q
    match (get? x.cmds x.cb.done).bind Cmd.status with
    | none => s
    | some _ =>
      let s := s.setQueue vf q { x with cmds := drop x.cmds x.cb.done }
      (s.blockUpdate vf q fun c => { c with done := c.done + 1 }).advanceDone vf q n

/-- Write a status word (R366); a word that cannot be written stops the queue (R464). -/
def State.writeStatus (s : State) (vf q i st : Nat) : State :=
  let x := s.queue vf q
  match s.fwWriteSound (s.writerDie vf q) (s.asnOf vf) (x.slotAddr i + 60) (leBytes 2 st) with
  | some s => s
  | none =>
    let s := s.blockUpdate vf q fun c => { c with stopped := true }
    s.excPush vf q (s.cmdRec vf 0x000C (x.slotAddr i) 1 (get { bytes := [] } x.cmds i).bytes)

/-- A command completes with a status (R366, R367); one that has its status keeps it (R404). -/
def State.cmdDone (s : State) (vf q i st : Nat) : State :=
  let x := s.queue vf q
  match get? x.cmds i with
  | none => s
  | some c =>
    if c.status.isSome then s
    else
    let s := s.setQueue vf q { x with cmds := put x.cmds i { c with status := some st } }
    let s := s.writeStatus vf q i st
    let s := if cardByte c.bytes 1 % 2 = 1 then s.interrupt vf 0 else s
    let s := s.advanceDone vf q 65536
    s.fetchCmds vf q

/-- A command is refused: it completes with status 1, under IRQ with vector 0, an exception record is written, and the queue stops (R366, R367, R472). -/
def State.cmdRefuse (s : State) (vf q i kind addr aux : Nat) : State :=
  let x := s.queue vf q
  match get? x.cmds i with
  | none => s
  | some c =>
    let s := s.setQueue vf q { x with cmds := put x.cmds i { c with refused := true, started := true } }
    let s := s.writeStatus vf q i 1
    let s := if cardByte c.bytes 1 % 2 = 1 then s.interrupt vf 0 else s
    let s := s.excPush vf q (s.cmdRec vf kind addr aux c.bytes)
    s.blockUpdate vf q fun b => { b with stopped := true }

/-- The result word of a command, written when it starts (R366, R369). -/
def State.writeResult (s : State) (vf q i r : Nat) : State :=
  let x := s.queue vf q
  match s.fwWriteSound (s.writerDie vf q) (s.asnOf vf) (x.slotAddr i + 56) (leBytes 4 r) with
  | some s => s
  | none =>
    let s := s.blockUpdate vf q fun c => { c with stopped := true }
    s.excPush vf q (s.cmdRec vf 0x000C (x.slotAddr i) 1 (get { bytes := [] } x.cmds i).bytes)

end Sys2Proof.Machine
end

