-- ==== Sys2Proof/Machine/Trace.lean ====
section
/-! DEFINITION. Study cores: the shelf and its records (R349 to R352, R457, R458), watchpoints (R347, R348), value history (R353),
marks (R338) and pacing (R346). -/

namespace Sys2Proof.Machine

/-- The group is on a study core. -/
def Group.studied (g : Group) : Bool := g.study.phase == 2 || g.study.phase == 3

/-- A register of a study core or the arming register of a compute core. -/
def StudyCore.r (c : StudyCore) (i : Nat) : W64 := get 0 c.reg i
/-- An arming register of a compute core (R363). -/
def Core.armR (c : Core) (i : Nat) : W64 := get 0 c.arm i

/-- FULL reads 1 when set and while the shelf has size 0 (R350, R457). -/
def StudyCore.isFull (c : StudyCore) : Bool := c.full || (c.r 10) == 0

/-- Bytes free between the write pointer and RD in ring order (R458). -/
def StudyCore.free (c : StudyCore) : Nat :=
  let size := (c.r 10).toNat
  if size = 0 then 0 else size - ((c.r 8).toNat + size - (c.r 11).toNat % 2 ^ 32 % size) % size

/-- A record header (R351). -/
def recHead (count serial aux kind flags slot nv pc mask : Nat) : List Byte :=
  leBytes 8 count ++ leBytes 2 serial ++ leBytes 2 aux ++ leBytes 1 kind ++ leBytes 1 flags ++ leBytes 1 slot ++ leBytes 1 nv ++
  leBytes 8 pc ++ leBytes 8 mask

/-- Bytes before the end of the ring that a record of `len` bytes cannot use (R350). -/
def StudyCore.pad (c : StudyCore) (len : Nat) : Nat :=
  let rest := (c.r 10).toNat - (c.r 8).toNat
  if rest < len then rest else 0

/-- Put bytes at the write pointer of a shelf. -/
def State.shelfBytes (s : State) (k : Nat) (b : List Byte) : State :=
  let c := s.study k
  let w := (c.r 8).toNat
  let s := { s with mem := { s.mem with dev := s.mem.dev.writeN ((c.r 9).toNat + w) b } }
  s.setStudy k { c with reg := put c.reg 8 (BitVec.ofNat 64 ((w + b.length) % (c.r 10).toNat)), serial := c.serial + 1 }

/-- Pad records to the end of the ring (R350). -/
def State.shelfPad (s : State) (k count : Nat) : Nat → State
  | 0 => s
  | n + 1 => (s.shelfBytes k (recHead count (s.study k).serial.toNat 0 0 0 0 0 0 0)).shelfPad k count n

/-- The shelf fills: FULL is set and every group that the core holds is to return with reason 9 (R458). -/
def State.shelfFull (s : State) (k : Nat) : State :=
  let c := s.study k
  let s := s.setStudy k { c with full := true }
  c.slots.foldl (fun s e =>
    let g := s.grp e.2
    s.setGrp e.2 { g with study := { g.study with due := some 9 } }) s

/-- Write a record to a shelf: kind, aux, flags, slot, value blocks, pc, mask, blocks. One that would leave less than 16 KiB fills it; records of
kinds 1 to 4 and 7 are not written to a full shelf (R458). -/
def State.shelf (s : State) (k kind aux flags slot nv : Nat) (pc mask : W64) (blocks : List Byte) : State :=
  let c := s.study k
  let len := 32 + blocks.length
  let count := (s.die (dieOf k)).count.toNat
  let plain := decide (1 ≤ kind ∧ kind ≤ 4) || kind == 7
  let tight := c.full || decide (c.free < c.pad len + len + 16384)
  if (c.r 10) = 0 then s
  else if plain && tight then (if c.full then s else s.shelfFull k)
  else
    let s := if tight && !c.full then s.shelfFull k else s
    let s := s.shelfPad k count (c.pad len / 32)
    s.shelfBytes k (recHead count (s.study k).serial.toNat aux kind flags slot nv pc.toNat mask.toNat ++ blocks)

/-- The level of a studied group (R349). -/
def Study.level (t : Study) : Nat := bits t.ctl 7 2
/-- The pace mode (R346). -/
def Study.paceMode (t : Study) : Nat := bits t.ctl 5 2
/-- The pace window W. -/
def Study.window (t : Study) : Nat := bits t.ctl 16 12 + 1

/-- 256 bytes of a word per lane position. -/
def laneBlock (f : Nat → Nat) : List Byte := (List.range 64).flatMap fun l => leBytes 4 (f l)

/-- The identity block (R352). -/
def State.identBlock (s : State) (k : Nat) : List Byte :=
  let g := s.grp k
  leBytes 4 (s.gridOf g).num.toNat ++ leBytes 8 (s.team g.team).lin ++ leBytes 1 (coreOf k % 64) ++ leBytes 1 (slotOf k) ++
  leBytes 1 g.study.paceMode ++ leBytes 1 g.study.level ++ zeros 112 ++
  (List.range 64).flatMap fun l => leBytes 2 (if has g.lanes.present l then (g.lanes.tid.toList.getD l 0).toNat else 0xFFFF)

/-- An arrive or depart record (R352). A group that retires departs from its `exit` (R360). -/
def State.moveRecord (s : State) (k kind why : Nat) : State :=
  let g := s.grp k
  let there : Group := { g with study := { g.study with phase := 2 } }
  let none_ := there.eligible == 0
  let pc := if kind = 6 ∧ why = 7 then g.study.exitPc else if none_ then Config.recordPc s.fresh else there.issuePc
  let s := if none_ then { s with fresh := s.fresh + 1 } else s
  s.shelf g.study.core kind why (16 + g.study.level) g.study.slot 0 pc (g.lanes.present &&& ~~~ g.lanes.fin) (s.identBlock k)

/-- Canonical place of a row: argument rows are the rows of the frame above them in the chain (R181). -/
def aliasRow (frames : List Frame) (d r : Nat) : Nat → Nat × Nat
  | 0 => (d, r)
  | n + 1 =>
    let top := frames.length - 1
    if top ≤ d then (d, r)
    else
      let f := frames.getD (top - d) {}
      let up := frames.getD (top - (d + 1)) {}
      if r < f.nv && decide (f.nv - up.k ≤ r) then aliasRow frames (d + 1) (r - (f.nv - up.k)) n else (d, r)

/-- A row of a frame of the chain as it stands: v row r below 64, which an argument row of a frame above is (R181), otherwise m row r − 64. -/
def Group.rowAt (g : Group) (d r : Nat) : Row :=
  if r < 64 then get {} (g.frameAt (aliasRow g.frames d r 32).1).v (aliasRow g.frames d r 32).2 else get {} (g.frameAt d).m (r - 64)

/-- The addresses of an instruction's lanes in a record: aux, flags and blocks (R351). -/
def addrBlocks (level : Nat) (accs : List (Nat × Nat)) : Nat × Nat × List Byte :=
  match accs with
  | [] => (0, 0, [])
  | a :: _ =>
    let at_ (l : Nat) : Nat := (accs.find? fun e => e.1 == l).elim 0 Prod.snd
    let hi := a.2 / 2 ^ 32 % 65536
    let high := accs.any fun e => e.2 / 2 ^ 32 % 65536 != hi
    if level < 2 then (hi, 0, [])
    else
      (hi, 4 + (if high then 8 else 0),
       laneBlock (fun l => at_ l % 2 ^ 32) ++ (if high then laneBlock (fun l => at_ l / 2 ^ 32 % 65536) else []))

/-- The record of an instruction of a studied group (R349): addresses, and the v rows it wrote. -/
def State.traceInstr (s : State) (k : Nat) (pc : W64) (mask : Mask) (accs : List (Nat × Nat)) (depth : Nat) (rows : List Nat) : State :=
  let g := s.grp k
  if !g.studied || g.study.level = 0 then s
  else
    let a := addrBlocks g.study.level accs
    let vs := if g.study.level = 3 then rows.take 16 else []
    s.shelf g.study.core 1 a.1 (g.study.level + a.2.1) g.study.slot vs.length pc mask
      (a.2.2 ++ vs.flatMap fun r => laneBlock fun l => (lane (g.rowAt depth r).w l).toNat)

/-- Whether a value passes the comparison of a watchpoint (R347). -/
def watchCmp (cmp : Nat) (x lo hi : W32) : Bool :=
  match cmp with
  | 0 => x == lo
  | 1 => x != lo
  | 2 => x.slt lo
  | 3 => !x.slt lo
  | 4 => x.ult lo
  | 5 => !x.ult lo
  | 6 => (x &&& hi) != 0
  | _ => decide (0x7F800000 < x.toNat % 2 ^ 31)

/-- A study return starts (R354): the group issues nothing until it is home. One that is due for a full shelf keeps that reason (R458). -/
def State.startReturn (s : State) (k why : Nat) : State :=
  let g := s.grp k
  if g.study.phase != 2 then s
  else s.setGrp k { (g.endWaits (· == .stop)) with study := { g.study with phase := 3, reason := if g.study.due = some 9 then 9 else why, due := none } }

/-- The group stops under R348. -/
def Group.halted (g : Group) : Group := if (g.waitMask (· == .stop)) = 0 then g.addWait (BitVec.allOnes 64) .stop else g

/-- An instruction that lanes `m` of a group have issued has not completed: some of them wait, or the group does (R39, R348). -/
def Group.inWait (g : Group) (m : Mask) : Bool := (g.waiting &&& m) != 0 || (m != 0 && (g.park.isSome || g.stall.isSome))

/-- A watchpoint hits: HITS, a record, a stop, which waits for the completion of an instruction `at_` that lands later: its place in the group's program
order, none for a matrix operation; or of one whose lanes `iss` wait (R348). -/
def State.watchHit (s : State) (at_ : Option (Option Nat)) (k n : Nat) (pc : W64) (iss mask : Mask) : State :=
  if mask = 0 then s
  else
    let g := s.grp k
    let c := s.study g.study.core
    let ctl := c.r (16 + 3 * n)
    let hits := bits ctl 32 32
    let s := s.setStudy g.study.core { c with reg := put c.reg (16 + 3 * n) (setBits ctl 32 32 (min (hits + 1) (2 ^ 32 - 1))) }
    let act := bits ctl 22 2
    let s := if act = 1 ∨ act = 2 then s.shelf g.study.core 2 n g.study.level g.study.slot 0 pc mask [] else s
    let g := s.grp k
    if act != 2 then s
    else match at_ with
    | none =>
      if g.inWait iss then s.setGrp k { g with study := { g.study with haltMask := iss } } else s.setGrp k g.halted
    | some (some q) => s.setGrp k { g with study := { g.study with halt := insertNat q g.study.halt } }
    | some none =>
      let c := s.study g.study.core
      s.setStudy g.study.core { c with mx := c.mx.zipIdx.map fun m => if m.2 + 1 = c.mx.length then { m.1 with halts := true } else m.1 }

/-- Keep the histories of a study core in the order of their records: slot, depth of the frame, v rows before m rows. -/
def histPut (key : Nat × Nat × Nat) (new : List Hist) : List ((Nat × Nat × Nat) × List Hist) → List ((Nat × Nat × Nat) × List Hist)
  | [] => [(key, new)]
  | e :: t =>
    if e.1 = key then (key, new) :: t
    else if (key.1 * 64 + key.2.1) * 256 + key.2.2 < (e.1.1 * 64 + e.1.2.1) * 256 + e.1.2.2 then (key, new) :: e :: t
    else e :: histPut key new t

/-- Keep a generation of a row's value (R353): an argument row is its caller's row. -/
def State.history (s : State) (k : Nat) (pc : W64) (depth : Nat) (rows : List Nat) : State :=
  let g := s.grp k
  if !g.studied then s
  else rows.foldl (fun s r =>
    let c := s.study g.study.core
    let key := (g.study.slot, g.ownerRow depth r)
    let old := (c.hist.find? fun e => e.1 == key).elim [] Prod.snd
    let new := ({ w := (g.rowAt depth r).w, pc := pc, count := g.study.pace } :: old).take 8
    s.setStudy g.study.core { c with hist := histPut key new c.hist }) s

/-- The generations of rows that are freed, or leave the study core, are discarded (R353): rows by depth and number. -/
def State.dropHist (s : State) (k : Nat) (p : Nat → Nat → Bool) : State :=
  let g := s.grp k
  if !g.studied then s
  else
    let c := s.study g.study.core
    s.setStudy g.study.core { c with hist := c.hist.filter fun e => !(e.1.1 == g.study.slot && p e.1.2.1 e.1.2.2) }

/-- The history records of a departing or stopped group: its rows in order, each newest first (R353, R360). -/
def State.historyRecords (s : State) (k : Nat) : State :=
  let g := s.grp k
  let c := s.study g.study.core
  (c.hist.filter fun e => e.1.1 == g.study.slot).foldl (fun s e => e.2.foldl (fun s h =>
    s.shelf g.study.core 7 e.1.2.2 g.study.level g.study.slot 1 h.pc (BitVec.ofNat 64 h.count) (laneBlock fun l => (lane h.w l).toNat)) s) s

/-- A group that has stopped leaves its histories (R353); it goes home at once when its grid is being pre-empted (R460). -/
def State.haltNow (s : State) (k : Nat) : State :=
  let s := s.historyRecords k
  let g := s.grp k
  if (s.grid g.grid).run.pre == 1 then s.startReturn k (g.study.due.getD 5) else s

/-- An instruction that a watchpoint stops its studied group on has completed (R348). -/
def State.haltOn (s : State) (k : Nat) : State :=
  let g := s.grp k
  if g.study.phase != 2 || g.waitMask (· == .stop) != 0 then s else (s.setGrp k g.halted).haltNow k

/-- The waiting instruction that a watchpoint stops a group on has completed (R348). -/
def State.haltWaited (s : State) (k : Nat) : State :=
  let g := s.grp k
  if g.study.haltMask = 0 || g.inWait g.study.haltMask then s
  else (s.setGrp k { g with study := { g.study with haltMask := 0 } }).haltOn k

/-- The instruction at a place in a group's program order has completed (R348). -/
def State.haltAt (s : State) (k q : Nat) : State :=
  let g := s.grp k
  if !g.study.halt.contains q then s
  else (s.setGrp k { g with study := { g.study with halt := g.study.halt.filter (· != q) } }).haltOn k

/-- The watchpoints of a studied group that an instruction hits, in ascending order (R348); a group that stops leaves its histories (R353). Accesses:
lane, address, width, and whether it reads and writes; rows: number, lanes; `at_` as in `watchHit`. -/
def State.watch (s : State) (at_ : Option (Option Nat)) (k : Nat) (pc : W64) (mask : Mask) (accs : List (Nat × Nat × Nat × Bool × Bool)) (depth : Nat)
    (rows : List (Nat × Mask)) : State :=
  let g := s.grp k
  let stopped (s : State) : Bool := (s.grp k).waitMask (· == .stop) != 0
  let t := if !g.studied then s
  else (List.range 64).foldl (fun s n =>
    let c := s.study g.study.core
    let ctl := c.r (16 + 3 * n)
    let lo := c.r (17 + 3 * n)
    let hi := c.r (18 + 3 * n)
    if !(ctl.getLsbD 21 || bits ctl 17 4 == g.study.slot) then s
    else match bits ctl 0 2 with
    | 1 =>
      let hit (a : Nat × Nat × Nat × Bool × Bool) : Bool :=
        a.2.2.1 != 0 && ((ctl.getLsbD 4 && a.2.2.2.1) || (ctl.getLsbD 5 && a.2.2.2.2)) && decide (a.2.1 ≤ hi.toNat) && decide (lo.toNat < a.2.1 + a.2.2.1)
      s.watchHit at_ k n pc mask ((accs.filter hit).foldl (fun m a => m ||| BitVec.ofNat 64 (2 ^ a.1)) 0)
    | 2 => if pc = lo then s.watchHit at_ k n pc mask mask else s
    | 3 =>
      let want := bits ctl 9 7 + (if ctl.getLsbD 16 then 64 else 0)
      match rows.find? fun r => r.1 == want && (ctl.getLsbD 16 || decide (want < 64)) with
      | some r => s.watchHit at_ k n pc mask (maskOf fun l => has r.2 l && watchCmp (bits ctl 6 3) (lane (g.rowAt depth want).w l) (loW lo) (loW hi))
      | none => s
    | _ => s) s
  if stopped t && !stopped s then t.haltNow k else t

/-- What a studied group's write of rows leaves on the study core: history, then value watches. -/
def State.noteRows (s : State) (k : Nat) (pc : W64) (mask : Mask) (depth : Nat) (rows : List Nat) : State :=
  (s.history k pc depth rows).watch none k pc 0 [] depth (rows.map fun r => (r, mask))

/-- A group leaves its study slot: its histories and the slot are freed. -/
def State.leaveStudy (s : State) (k : Nat) : State :=
  let g := s.grp k
  let c := s.study g.study.core
  let s := s.setStudy g.study.core { c with slots := c.slots.filter fun e => e.2 != k, hist := c.hist.filter fun e => e.1.1 != g.study.slot }
  s.setGrp k { (g.endWaits (· == .stop)) with
    frames := g.frames.map fun f => { f with away := false }
    study := { pace := g.study.pace } }

/-- A group arrives on its study core (R341, R352): the pace counts of its team start at 0 (R346, LOG 99). -/
def State.arriveStudy (s : State) (k : Nat) : State :=
  let g := s.grp k
  let s := s.setGrp k { g with study := { g.study with phase := 2, quota := 0 } }
  let s := { s with groups := s.groups.map fun (e : Nat × Group) => if e.2.team == g.team then (e.1, { e.2 with study := { e.2.study with pace := 0 } }) else e }
  s.moveRecord k 5 g.study.cause

/-- The records of pantry instructions that are still under way as their group leaves the study core: no value blocks, since nothing has landed (R349,
LOG 135). -/
def State.panRecords (s : State) (k : Nat) : State :=
  let s := ((s.grp k).mio.pans.filter PanOp.traced).foldl (fun s p => s.traceInstr k p.pc p.mask [] p.depth []) s
  let g := s.grp k
  s.setGrp k { g with mio := { g.mio with pans := g.mio.pans.map fun p => { p with traced := false } } }

/-- What a studied group has in flight when its team rolls back is lost: loads, atomics and pantry instructions leave their records, without value blocks
(R349). -/
def State.lostRecords (s : State) (k : Nat) : State :=
  let g := s.grp k
  if !g.studied || g.study.level != 3 then s
  else
    let loads := g.mio.loads.filterMap fun l => match l.dst with
      | .rows .. => some (l.pc, l.mask, l.accs)
      | _ => none
    let atoms := g.mio.fifo.filterMap fun e => match e.op with
      | .atom _ _ (some _) items _ => some (e.pc, e.mask, items.map Prod.fst)
      | _ => none
    ((loads ++ atoms).foldl (fun s x => s.traceInstr k x.1 x.2.1 (x.2.2.map fun a => (a.lane, a.va)) g.fdepth []) s).panRecords k

/-- A group leaves its study slot without a return trip: it retires or its team rolls back (R345, R355). A migration in flight completes
first (R459). -/
def State.depart (s : State) (k why : Nat) : State :=
  let g := s.grp k
  let s := if g.study.phase = 1 then s.arriveStudy k else s
  if (s.grp k).studied then ((s.moveRecord k 6 why).historyRecords k).leaveStudy k else s

/-- A trigger marks a group; a mark on a group already marked, migrating or studied is discarded (R338). -/
def State.markGroup (s : State) (k cause : Nat) : State :=
  let g := s.grp k
  if g.study.mark.isSome || !(g.study.phase == 0 || g.study.phase == 4) then s
  else s.setGrp k { g with study := { g.study with mark := some cause } }

/-- The arming of a core applies to a grid and bit `b` of STUDYCTL is set (R336, R338). -/
def State.armed (s : State) (c : Nat) (grid b : Nat) : Bool :=
  let ctl := (s.core c).armR 0
  ctl.getLsbD b && bits ctl 32 32 == s.gridNum grid && bits ctl 32 32 != 0

/-- The PC-match triggers of a core, pcm0 before pcm1 (R338). -/
def State.pcMatch (s : State) (k : Nat) (pc : W64) : State :=
  let g := s.grp k
  let c := coreOf k
  if !s.armed c g.grid 1 then s
  else
    let hit (i : Nat) : Bool := ((s.core c).armR i).getLsbD 0 && bits ((s.core c).armR i) 1 47 == bits pc 1 47
    if hit 5 then s.markGroup k 2 else if hit 6 then s.markGroup k 3 else s

/-- The siblings of a studied group for its pace mode: its team's other groups, or the gang's (R346). -/
def State.siblings (s : State) (k : Nat) : List (Nat × Group) :=
  let g := s.grp k
  let tms := if g.study.paceMode = 2 then (s.team g.team).gangTeams ++ [g.team] else [g.team]
  s.groups.filter fun e => e.2.live && e.1 != k && tms.contains e.2.team

/-- Pacing holds a group (R346): a sibling too far ahead of, or halted by, a studied group that has an eligible lane, or the studied
group itself; a studied group is held by its own mode alone, so that no two hold each other (R460, LOG 144). A team that is saved issues nothing
(R54). -/
def State.paceHeld (s : State) (k : Nat) : Bool :=
  let g := s.grp k
  (s.team g.team).pre == 2 ||
  (g.study.phase != 2 && s.groups.any fun e =>
    e.2.study.phase == 2 && e.2.eligible != 0 && (s.siblings e.1).any (fun x => x.1 == k) &&
    (match e.2.study.paceMode with
     | 1 | 2 => decide (e.2.study.pace + e.2.study.window ≤ g.study.pace)
     | 3 => true
     | _ => false)) ||
  (g.study.phase == 2 && (g.study.paceMode == 1 || g.study.paceMode == 2) &&
    (match leastBy (fun e => e.2.study.pace) ((s.siblings k).filter fun e => e.2.eligible != 0) with
     | some e => decide (e.2.study.pace + g.study.window ≤ g.study.pace)
     | none => false))

end Sys2Proof.Machine
end

