-- ==== Sys2Proof/Machine/Teams.lean ====
section
/-! DEFINITION. Register rows, frames and frame waits (R178 to R188, R423, R424); semaphores and hatches; barriers (R225 to R227);
checkpoints and rollback (R49 to R53, R454); bins (R44 to R46); retirement and completion (R37, R38, R304, R319 to R326); containment
(R406, R407, R433). -/

namespace Sys2Proof.Machine

/-! ### Rows -/

/-- Rows that a chain holds, top frame first: a frame's own rows, and the argument rows of a spilled caller that a frame keeps, or has left resident
(R181, R186). -/
def chainRows : List Frame → Nat
  | [] => 0
  | [f] => if f.spilled then f.kept else f.nv + f.nm
  | f :: c :: t =>
    (if f.spilled then f.kept else f.nv - f.k + f.nm) + (if c.spilled && !f.spilled then f.k else 0) + chainRows (c :: t)

/-- Rows of a chain that a study core holds (R341, R342). -/
def awayRows : List Frame → Nat
  | [] => 0
  | [f] => if f.away then f.nv + f.nm else f.kept
  | f :: c :: t => (if f.away then f.nv + f.nm - (if c.away then f.k else 0) else f.kept) + awayRows (c :: t)

/-- Rows that a study core has reserved for the frame that a group's frame wait is to push (R341). -/
def Core.awayWaits (c : Core) (k : Nat) : Nat := c.line.foldl (fun a w => match w.act with
  | .call f _ | .handler f _ _ _ _ => if w.grp == k && f.away then a + f.nv + f.nm else a
  | _ => a) 0
/-- Rows of a study core that are free: 3,072 less those of the groups in its slots (R335, R340). -/
def State.studyFree (s : State) (c : Nat) : Nat :=
  (s.study c).slots.foldl (fun a e => a - awayRows (s.grp e.2).frames - (s.core (coreOf e.2)).awayWaits e.2) 3072

/-- Rows that a frame about to become the top takes: those that are not resident as argument rows of its callee or of its caller. -/
def topRows (frames : List Frame) : Nat :=
  match frames with
  | [] => 0
  | [f] => f.nv + f.nm - f.kept
  | f :: c :: _ => f.nv + f.nm - min f.nv (f.kept + if c.spilled then 0 else f.k)

/-- Rows that stay with a team beside its groups' (R37). -/
def Team.heldRows (t : Team) : Nat := t.guard.held.foldl (fun a h => a + chainRows h.2) 0

/-- Rows of a partition's pool on a core that are free (R184): its rows, less the shadow pool, less the rows its groups hold, and those of the groups
that have retired from guarded teams since their checkpoint (R37). -/
def State.freeRows (s : State) (c part : Nat) : Nat :=
  let all := (s.part part).rows
  let shadow := if s.guardedOn c part = [] then 0 else all / 8
  let used := s.groups.foldl (fun a e =>
    if coreOf e.1 == c && s.partOf (s.gridOf e.2) == part then a + chainRows e.2.frames else a) 0
  let held := (s.guardedOn c part).foldl (fun a e => a + e.2.heldRows) 0
  all - shadow - used - held

/-- The bytes of a spilled frame's image (R186, R423). -/
def imageBytes (f : Frame) (sharedAbove : Nat) : Nat := 256 * (f.nv + f.nm - sharedAbove) + 128

/-- The cellar share of a partition on a core (R423): none without a colour of its own (R390, LOG 113). -/
def State.cellarShare (s : State) (part : Nat) : Nat := if (s.part part).colour = 0 then 0 else 16777216 * (s.part part).rows / 6144

/-- Bytes of the images of a chain's spilled frames: each leaves out the argument rows that stand with the frame above, or have stayed (R186). -/
def chainImages (frames : List Frame) : Nat :=
  (frames.zip (0 :: frames.map Frame.k)).foldl (fun a p => if p.1.spilled then a + imageBytes p.1 (p.2 + p.1.kept) else a) 0

/-- The chains of groups of a team that have gone and whose rows it still needs: those that have retired or dissolved since the checkpoint (R37), and
those whose lanes sit in bins (R187), each once. -/
def State.goneChains (s : State) (t : Nat) : List (List Frame) :=
  let tm := s.team t
  let held := tm.guard.held.map Prod.snd
  let gs := tm.ghosts.foldl (fun (l : List Group) e =>
    if held.contains e.2.frames || ((s.groupsOf t).map Prod.snd ++ l).any (fun g => g.num == e.2.num && g.lanes.tid == e.2.lanes.tid) then l
    else l ++ [e.2]) []
  held ++ gs.map Group.frames

/-- Bytes of the share in use: undo areas of guarded teams and images of spilled frames. -/
def State.cellarUsed (s : State) (c part : Nat) : Nat :=
  (s.guardedOn c part).length * 1048576 +
  s.groups.foldl (fun a e =>
    if coreOf e.1 == c && s.partOf (s.gridOf e.2) == part then a + chainImages e.2.frames else a) 0 +
  (s.teams.filter fun e => e.2.live && e.2.core == c && s.partOf (s.grid e.2.grid) == part).foldl (fun a e =>
    (s.goneChains e.1).foldl (fun a fs => a + chainImages fs) a) 0

/-- The rows (64 + m for m rows) that an outstanding load writes. -/
def LdDst.rows_ : LdDst → List Nat
  | .rows _ d n => (List.range n).map (d + ·)
  | .mrows d => (List.range 16).map (fun e => 64 + d + e)
  | _ => []

/-- Rows that are targets of accesses in flight, with the depth of their frame: loads, atomics, pantry answers. -/
def Group.pending (g : Group) : List (Nat × Nat) :=
  (g.mio.loads.flatMap fun l => l.dst.rows_.map fun r => (l.depth, r)) ++
  (g.mio.fifo.flatMap fun e => match e.op with
    | .atom _ wide (some d) _ _ => (List.range (if wide then 2 else 1)).map fun i => (e.depth, d + i)
    | _ => []) ++
  (g.mio.pans.flatMap fun p => match p.dst with
    | some d => (List.range 16).map fun i => (p.depth, d + i)
    | none => [])

/-- The D rows of a matrix operation. -/
def MxOp.dRows (m : MxOp) : List Nat := (List.range 64).map fun e => 64 + 16 * m.dq + e

/-- The v rows that a matrix operation reads: the A side and the B side with their scale rows. -/
def MxOp.vRows (m : MxOp) : List Nat :=
  let sr := mxScaleRows ⟨m.word.toNat⟩
  (List.range ((if m.sparse then 8 else 16) + sr)).map (m.a + ·) ++ (List.range (16 + sr)).map (m.b + ·)

/-- The queue of a matrix engine: a compute core's, or a study core's (R255, R335). -/
def State.mxAt (s : State) (c : Nat) : List MxOp := if 48 ≤ c % 64 then (s.study c).mx else (s.core c).mx
/-- Replace it. -/
def State.setMxAt (s : State) (c : Nat) (l : List MxOp) : State :=
  if 48 ≤ c % 64 then s.setStudy c { s.study c with mx := l } else s.setCore c { s.core c with mx := l }
/-- The core that runs a group's matrix operations: its own, or the study core that holds it (R343). -/
def State.engineCore (s : State) (k : Nat) : Nat := if (s.grp k).studied then (s.grp k).study.core else coreOf k

/-- Matrix operations of a group that have not completed. -/
def State.mxOf (s : State) (k : Nat) : List MxOp := (s.mxAt (s.engineCore k)).filter fun m => m.grp == k

/-- A row of depth d' lies in the frame of depth d: an argument row stands in its own frame and in those that share it (R181). -/
def Group.rowIn (g : Group) (d d' r : Nat) : Bool := decide ((g.ownerRow d' r).1 ≤ d) && decide (d ≤ (aliasRow g.frames d' r 32).1)

/-- Rows of the frame of depth d are the target of a load or of a matrix operation in flight, or the source of a store that has not drained
(R183, R186). -/
def State.pinned (s : State) (k d : Nat) : Bool :=
  let g := s.grp k
  g.pending.any (fun p => g.rowIn d p.1 p.2) || (s.mxOf k).any (fun m => m.depth == d) ||
    g.mio.fifo.any fun e => e.src.any fun p => decide ((g.frameAt p.1).born ≤ e.seq) && g.rowIn d p.1 p.2

/-! ### The cellar engine (R185) -/

/-- The depths of a group's frames, lowest first, that hold rows and may be taken: of a group that is moving or on a study core none, since its rows are
reserved (R186, R341). -/
def State.spillable (s : State) (k : Nat) (top : Bool) : List Nat :=
  let g := s.grp k
  if !(g.study.phase == 0 || g.study.phase == 4) then []
  else (List.range (if top then g.frames.length else g.fdepth)).filter fun d => !(g.frameAt d).spilled && !(g.frameAt d).away && !s.pinned k d

/-- A group waits on a barrier, hatch, semaphore or work queue, or is parked, at `trap` (R185) or as one that is at `trap` (R400), and no lane of it is
eligible; a frame wait is none of these. -/
def Group.longWait (g : Group) : Bool :=
  g.eligible == 0 && g.waitMask (· == .frame) == 0 && (g.lanes.waits.any (fun w => match w.1 with
    | .bar _ | .barArr _ | .barWt _ | .hpush _ | .hpop _ _ | .sem _ _ | .wq _ => true
    | _ => false) || g.park.isSome)

/-- Rows of the frame of depth d that stay with the frame above it. -/
def Group.sharedAbove (g : Group) (d : Nat) : Nat := if d < g.fdepth then (g.frameAt (d + 1)).k else 0

/-- The next frame that the engine takes, in the order of R185, among those whose image fits in the share (R423). -/
def State.nextSpill (s : State) (c part : Nat) (fits : Bool) : Option (Nat × Nat) :=
  let gs := s.groups.filter fun e => coreOf e.1 == c && s.partOf (s.gridOf e.2) == part && e.2.live
  let free := s.cellarShare part - s.cellarUsed c part
  let ok (e : Nat × Group) (d : Nat) : Bool := !fits || decide (imageBytes (e.2.frameAt d) (e.2.sharedAbove d) ≤ free)
  let waiters := ((s.core c).line.filter fun w => match w.act with
    | .bin _ => false
    | _ => true).map FrameWait.grp
  let pick (p : Nat × Group → Bool) (top : Bool) : Option (Nat × Nat) :=
    match leastBy (fun e => e.2.age) (gs.filter fun e => p e && (s.spillable e.1 top).any (ok e)) with
    | some e => ((s.spillable e.1 top).filter (ok e)).head?.map fun d => (e.1, d)
    | none => none
  match pick (fun _ => true) false with
  | some x => some x
  | none => match pick (fun e => e.2.longWait && !waiters.contains e.1) true with
    | some x => some x
    | none => pick (fun e => e.2.eligible != 0 && !waiters.contains e.1) true

/-- Some frame of the partition on the core is passed over only because of accesses in flight (R424). -/
def State.somePinned (s : State) (c part : Nat) : Bool :=
  s.groups.any fun e => coreOf e.1 == c && s.partOf (s.gridOf e.2) == part && e.2.live && (e.2.study.phase == 0 || e.2.study.phase == 4) &&
    (List.range e.2.frames.length).any fun d => !(e.2.frameAt d).spilled && s.pinned e.1 d

/-- The frame that the engine of a study core writes to the home core's cellar (R342): a frame below the top of the group that has issued longest
ago. -/
def State.nextAway (s : State) (c : Nat) : Option (Nat × Nat) :=
  let gs := (s.study c).slots.map fun e => (e.2, s.grp e.2)
  let ds (e : Nat × Group) : List Nat := (List.range e.2.fdepth).filter fun d => (e.2.frameAt d).away && !s.pinned e.1 d &&
    decide (imageBytes (e.2.frameAt d) (if d < e.2.fdepth then (e.2.frameAt (d + 1)).k else 0) + s.cellarUsed (coreOf e.1) (s.partOf (s.gridOf e.2)) ≤
      s.cellarShare (s.partOf (s.gridOf e.2)))
  match leastBy (fun e => e.2.age) (gs.filter fun e => ds e != []) with
  | some e => (ds e).head?.map fun d => (e.1, d)
  | none => none

/-- Frames below the top of a study core's groups that its engine could write, whatever their images take, and those that accesses in flight keep it
from (R342, R424). -/
def State.awayFrames (s : State) (c : Nat) (pinned : Bool) : Bool :=
  (s.study c).slots.any fun e => (List.range (s.grp e.2).fdepth).any fun d => ((s.grp e.2).frameAt d).away && s.pinned e.2 d == pinned

/-- Rows of a new frame: the caller's last k rows become its first, all others are fresh (R179, R181). -/
def Group.pushFrame (g : Group) (f : Frame) : Group :=
  let c := g.top
  let args := (List.range f.k).foldl (fun m i => match get? c.v (c.nv - f.k + i) with
    | some r => put m i r
    | none => m) f.v
  { g with frames := { f with v := args, away := f.away || g.studied, born := g.mio.seq } :: g.frames }

/-- Pop the top frame with j result rows (R182): the caller's argument rows receive the callee's rows, and those beyond the results
are cleared in the frame's lanes that have not finished; they stay resident when the caller is not (R186, R342). -/
def Group.popFrame (g : Group) (j : Nat) : Group :=
  let f := g.top
  let g := { g with frames := g.frames.tail }
  let c := g.top
  let run := f.lanes &&& g.lanes.present &&& ~~~ g.lanes.fin
  let c := (List.range f.k).foldl (fun c i =>
    let r : Row := get {} f.v i
    let r : Row := if j ≤ i then ⟨blend run (Vector.replicate 64 0) r.w, r.px &&& ~~~ run⟩ else r
    { c with v := put c.v (c.nv - f.k + i) r }) c
  g.setTop { c with kept := if (c.spilled && !f.spilled) || (f.away && !c.away) then f.k else 0 }

/-- Enter a handler (R195, R196, R399): the trap-stack entry, the trap registers, the privileged mode, the handler's lanes. -/
def Group.enterHandler (g : Group) (f : Frame) (target : W64) (ent : TrapEnt) (code : BitVec 16) (val : W64) : Group :=
  let g := g.pushFrame f
  { (g.setPc f.lanes fun _ => target) with
    regs := { g.regs with traps := ent :: g.regs.traps, trapcode := code, trapval := val, mode := true } }

/-! ### Bins (R44 to R46) -/

/-- The lanes of a bin: identity, former group, position, in ascending identity. -/
def Bin.sorted (b : Bin) : List (Nat × Nat × Nat) :=
  b.lanes.foldl (fun l x => (l.filter fun y => y.1 < x.1) ++ x :: (l.filter fun y => x.1 ≤ y.1)) []

/-- A row gathered from the former groups' rows of a frame. -/
def gatherRow (src : List (Group × Nat)) (get_ : Group → Row) : Row :=
  ⟨tab fun l => match src[l]? with
    | some x => lane (get_ x.1).w x.2
    | none => 0,
   maskOf fun l => match src[l]? with
    | some x => has (get_ x.1).px x.2
    | none => false⟩

/-- A mask gathered from the former groups' masks. -/
def gatherMask (src : List (Group × Nat)) (get_ : Group → Mask) : Mask :=
  maskOf fun l => match src[l]? with
    | some x => has (get_ x.1) x.2
    | none => false

/-- The group that a due bin becomes (R46). -/
def binGroup (b : Bin) (ghosts : FMap Group) (num : Nat) : Group :=
  let src : List (Group × Nat) := b.sorted.map fun x => (get {} ghosts x.2.1, x.2.2)
  let lead := (src.headD ({}, 0)).1
  let n := src.length
  let present := maskOf fun l => decide (l < n)
  let frames := (List.range lead.frames.length).reverse.map fun d =>
    let f := lead.frameAt d
    { f with
      v := (List.range f.nv).map fun r => (r, gatherRow src fun g => get {} (g.frameAt d).v r)
      m := (List.range f.nm).map fun r => (r, gatherRow src fun g => get {} (g.frameAt d).m r)
      lanes := gatherMask src (fun g => (g.frameAt d).lanes)
      spilled := false, kept := 0, born := 0 }
  { live := true, grid := lead.grid, team := lead.team, num := num, role := b.role
    lanes := { present := present, fin := 0
               tid := Vector.ofFn fun i : Fin 64 => match src[i.val]? with
                 | some x => x.1.lanes.tid.toList.getD x.2 0
                 | none => 0
               pc := Vector.replicate 64 b.pc }
    frames := frames
    regs := { lead.regs with
      p := (List.range 12).map fun p => (p, gatherMask src fun g => get 0 g.regs.p p)
      slots := [], valid := 0, count := 0 } }

/-- The due bin that leaves first: ascending program counter, then role (R45); of several with both alike the first that was opened (LOG 119). -/
def firstDue (bs : List Bin) : Option (Nat × Bin) :=
  leastBy (fun x => x.2.pc.toNat * 4 + x.2.role) ((bs.zipIdx.map fun x => (x.2, x.1)).filter fun x => x.2.due)

/-- The lowest group number of a team whose slot is the team's and holds no group (R46). -/
def State.freeNumber (s : State) (t : Nat) : Option Nat :=
  (List.range (s.team t).slots.length).find? fun n =>
    !(s.team t).back.contains n && (get? s.groups ((s.team t).slots.getD n 0)).isNone

/-- The numbers of a team whose slots hold no group. -/
def State.vacant (s : State) (t : Nat) : List Nat :=
  (List.range (s.team t).slots.length).filter fun n => (get? s.groups ((s.team t).slots.getD n 0)).isNone
/-- The slots of a team that hold no group return to the core (R37): not while lanes sit in bins, which may need them (R45). -/
def State.slotsBack (s : State) (t : Nat) : State :=
  let tm := s.team t
  if tm.bins = [] then s.setTeam t { tm with back := (s.vacant t).foldl (fun b n => insertNat n b) tm.back } else s

/-- The first due bin of a team leaves as a group (R46). -/
def State.binLeaves (s : State) (t : Nat) : State :=
  match firstDue (s.team t).bins, s.freeNumber t with
  | some (i, b), some n =>
    let tm := s.team t
    let bins := tm.bins.eraseIdx i
    let ghosts := tm.ghosts.filter fun e => bins.any fun b => b.lanes.any fun x => x.2.1 == e.1
    let s := s.setTeam t { tm with bins := bins, ghosts := ghosts }
    let s := s.setGrp (tm.slots.getD n 0) (binGroup b tm.ghosts n)
    if (s.grid tm.grid).guarded then s else s.slotsBack t
  | _, _ => s

/-! ### Frame waits (R184) -/

/-- Serve a frame wait: its rows are taken. -/
def State.serveWait (s : State) (w : FrameWait) : State :=
  let g := s.grp w.grp
  match w.act with
  | .call f target =>
    let g := (g.endWaits (· == .frame)).pushFrame f
    s.setGrp w.grp (g.setPc f.lanes fun _ => target)
  | .handler f target ent code val => s.setGrp w.grp ((g.endWaits (· == .frame)).enterHandler f target ent code val)
  | .refill => s.setGrp w.grp (g.setTop { g.top with spilled := false, kept := 0, away := g.top.away || g.studied })
  | .bin t => s.binLeaves t

/-- The partition of a core's frame wait. -/
def State.waitPart (s : State) (w : FrameWait) : Nat :=
  match w.act with
  | .bin t => s.partOf (s.grid (s.team t).grid)
  | _ => s.partOf (s.gridOf (s.grp w.grp))

/-- Rows that a frame wait needs from the pool (R184): those of the chain of the bin that leaves when it is served (R45). -/
def State.rowsOf (s : State) (w : FrameWait) : Nat :=
  match w.act with
  | .bin t => match firstDue (s.team t).bins with
    | some (_, b) => chainRows (binGroup b (s.team t).ghosts 0).frames
    | none => 0
  | _ => w.rows

/-- Rows that a frame wait takes on a study core (R342). -/
def State.studyRows (s : State) (w : FrameWait) : Nat :=
  let g := s.grp w.grp
  match w.act with
  | .bin _ => 0
  | .refill => if g.studied && !g.top.away then g.top.nv + g.top.nm - g.top.kept else 0
  | _ => if g.studied then w.rows else 0
/-- The study core of a frame wait's group can give its rows. -/
def State.studyGives (s : State) (w : FrameWait) : Bool := s.studyRows w == 0 || decide (s.studyRows w ≤ s.studyFree (s.grp w.grp).study.core)

/-- Serve the line of a partition on a core, oldest first, while the oldest wait can be served (R184). -/
def State.serveLine (s : State) (c part : Nat) : Nat → State
  | 0 => s
  | n + 1 =>
    match findIdx (fun w => s.waitPart w == part) (s.core c).line with
    | none => s
    | some (i, w) =>
      if s.rowsOf w ≤ s.freeRows c part ∧ s.studyGives w = true then
        let s := s.setCore c { s.core c with line := (s.core c).line.eraseIdx i }
        (s.serveWait w).serveLine c part n
      else s

/-- Serve every partition's line on a core. -/
def State.serve (s : State) (c : Nat) : State :=
  (List.range 16).foldl (fun s p => s.serveLine c p 64) s

/-- Enter a frame wait, its group waiting, and serve the line. -/
def State.frameWait (s : State) (w : FrameWait) : State :=
  let c := coreOf w.grp
  let s := match w.act with
    | .bin _ => s
    | _ => s.setGrp w.grp ((s.grp w.grp).addWait (BitVec.allOnes 64) .frame)
  (s.setCore c { s.core c with line := (s.core c).line ++ [w] }).serve c

/-- Frame waits of a group leave the line. -/
def Core.unlined (c : Core) (k : Nat) : Core :=
  { c with line := c.line.filter fun w => match w.act with
    | .bin _ => true
    | _ => w.grp != k }

/-- A refill for the frame about to become the top frame, when its rows are in the cellar (R182, R188), or not on the study core that needs them
(R342); the wait goes on until the last row has landed. -/
def State.refillTop (s : State) (k : Nat) : State :=
  let g := s.grp k
  if g.frames != [] && (g.top.spilled || (g.study.phase == 2 && !g.top.away)) then
    s.frameWait ⟨k, if g.top.spilled then topRows g.frames else 0, .refill⟩
  else s

/-! ### Parks (R191, R400, R420) -/

/-- A group parks: every lane waits, its slots are invalid (R400, R426). The record is written once it has drained. -/
def State.parkGroup (s : State) (k : Nat) (p : Park) : State :=
  s.setGrp k { (s.grp k).invalidate with park := some { p with away := (s.grp k).study.phase == 2 } }

/-- The parked record of a fault. -/
def Group.parkFor (g : Group) (why : ParkWhy) (f : Flt) (pc : W64) (len : Nat) : Park :=
  { why := why, flt := f, mask := f.mask, pc := pc, len := len, serial := 0, sent := false, cls := 1, depth := g.fdepth }

/-- The escalation's fault (R420): kind 0x050C with the original kind, or the code of a `brk`, in aux. -/
def escFlt (f : Flt) (brk : Option (BitVec 16)) : Flt :=
  { f with kind := 0x050C, aux := match brk with
    | some c => BitVec.ofNat 64 (0xFFFF + c.toNat * 65536)
    | none => BitVec.ofNat 64 f.kind }

/-- The record of a team whose refill or bin can never be served (R424). -/
def State.starvedRec (s : State) (t : Nat) : Rec := s.gridRec (s.team t).grid (s.team t).lin 3 0x050E 0 0

/-- Why the oldest wait of a partition's line can never be served, 1 or 2 (R424); none while it can be, or while an engine may still take a frame, of the
home core or of the study core that is to give rows too (R342). -/
def State.unservedWhy (s : State) (c part : Nat) (w : FrameWait) : Option Nat :=
  if s.freeRows c part < s.rowsOf w then
    if (s.nextSpill c part true).isSome || s.somePinned c part then none
    else some (if (s.nextSpill c part false).isSome then 1 else 2)
  else if s.studyGives w then none
  else
    let x := (s.grp w.grp).study.core
    if (s.nextAway x).isSome || s.awayFrames x true then none else some (if s.awayFrames x false then 1 else 2)

/-- The oldest waits that can never be served fail (R424): a `call` gets its fault at its next issue, a handler entry escalates (R420); a team whose
refill or bin fails, or whose group escalates once more, is returned with its record for its containment. -/
def State.unservable (s : State) (c part : Nat) : Nat → State × List (Nat × Rec)
  | 0 => (s, [])
  | n + 1 =>
    match findIdx (fun w => s.waitPart w == part) (s.core c).line with
    | none => (s, [])
    | some (i, w) =>
      if s.rowsOf w ≤ s.freeRows c part && s.studyGives w then (s.serveLine c part 64).unservable c part n
      else match s.unservedWhy c part w with
      | none => (s, [])
      | some why =>
        let s := s.setCore c { s.core c with line := (s.core c).line.eraseIdx i }
        let g := (s.grp w.grp).endWaits (· == .frame)
        match w.act with
        | .call f _ =>
          let flt : Flt := { kind := 0x050D, mask := f.lanes, addr := 0, aux := BitVec.ofNat 64 (why + w.rows * 2 ^ 32) }
          (s.setGrp w.grp { g with due := g.due ++ [⟨flt, f.lanes, f.ret - 4, 1⟩] }).unservable c part n
        | .handler f _ ent code val =>
          let flt := (ent.flt.map Prod.fst).getD ⟨0, f.lanes, 0, 0⟩
          let pc := (ent.flt.map fun x => x.2.1).getD val
          let len := (ent.flt.map fun x => x.2.2).getD 4
          let e := escFlt flt (if ent.flt.isNone then some code else none)
          let orig := e.aux.toNat % 65536
          if g.regs.escalated then
            let r := (s.setGrp w.grp g).unservable c part n
            (r.1, (g.team, s.recOf w.grp 3 e pc (s.groupFlags w.grp true true false)) :: r.2)
          else
            let g := { g with regs := { g.regs with escalated := true } }
            ((s.setGrp w.grp g).parkGroup w.grp { g.parkFor (.escal orig) e pc len with mask := f.lanes }).unservable c part n
        | .refill =>
          let r := (s.setGrp w.grp g).unservable c part n
          (r.1, (g.team, s.starvedRec g.team) :: r.2)
        | .bin t =>
          let r := s.unservable c part n
          (r.1, (t, s.starvedRec t) :: r.2)

/-! ### Semaphores and hatches (R228 to R231) -/

/-- An acquire of a group at a scope (R219). -/
def State.acquireBy (s : State) (k : Nat) (sc : Scope) : State := s.acquire (coreOf k) (s.gridOf (s.grp k)).fused sc

/-- Waiters of a semaphore whose value is met become eligible together (R229). -/
def State.semWake (s : State) (t k : Nat) : State :=
  let v := s.sem (s.team t) k
  (s.groupsOf t).foldl (fun s e => s.setGrp e.1 ((s.grp e.1).endWaits fun w => match w with
    | .sem j x => j == k && x.ule v
    | _ => false)) s

/-- Perform an operation on a semaphore of a team (R228, R229). -/
def State.semOp (s : State) (t k : Nat) (set : Bool) (v : W64) : State :=
  let tm := s.team t
  (s.setSem tm k (if set then v else s.sem tm k + v)).semWake t k

/-- The slots of a hatch that the team's kernel declares, 0 for none (R230, LOG 10). -/
def State.hatchSlots (s : State) (t h : Nat) : Nat :=
  let gr := s.grid (s.team t).grid
  (get [] s.decls ((s.asnOf gr.vf).getD 0 * 2 ^ 64 + fieldAt gr.card 24 8)).getD h 0

/-- Handles of a hatch, oldest first. -/
def Team.handles (t : Team) (h : Nat) : List W32 := get [] t.hatch h

/-- The oldest handle of a hatch is damaged (R434). -/
def Team.headPx (t : Team) (h : Nat) : Bool := t.hatchPx.contains (h, 0)
/-- The oldest handle of a hatch leaves. -/
def Team.popHandle (t : Team) (h : Nat) (rest : List W32) : Team :=
  { t with hatch := put t.hatch h rest
           hatchPx := t.hatchPx.filterMap fun x => if x.1 ≠ h then some x else if x.2 = 0 then none else some (h, x.2 - 1) }

/-- The line of the scratchpad reserve that a hatch's slots take (R49, R230, LOG 98). -/
def State.logHatch (s : State) (t h : Nat) : State := s.logScr t ((s.grid (s.team t).grid).alloc + 64 * h)

/-- Serve the line of waiting poppers and pushers of a hatch: a pop completes first, then the oldest waiting push, once its release is complete (R231). -/
def State.hatchRun (s : State) (t h : Nat) : Nat → State
  | 0 => s
  | n + 1 =>
    let tm := s.team t
    match tm.handles h, findIdx (fun x => x.1 == h) tm.poppers with
    | v :: rest, some (i, (_, k, sd, m)) =>
      let s := s.logHatch t h
      let tm := s.team t
      let px := tm.headPx h
      let s := s.setTeam t { tm.popHandle h rest with poppers := tm.poppers.eraseIdx i }
      let g := ((s.grp k).setScAt (sd / 32) (sd % 32) ⟨v.setWidth 64, px⟩).endOne (.hpop h sd, m)
      (s.setGrp k g).hatchRun t h n
    | _, _ =>
      match findIdx (fun x => x.1 == h) tm.pushers with
      | some (i, (_, k, v, m, released)) =>
        if released && decide ((tm.handles h).length < s.hatchSlots t h) then
          let s := s.logHatch t h
          let tm := s.team t
          let s := s.setTeam t { tm with hatch := put tm.hatch h (tm.handles h ++ [v]), pushers := tm.pushers.eraseIdx i }
          let g := s.grp k
          (s.setGrp k (g.endOne (.hpush h, m))).hatchRun t h n
        else s
      | none => s
/-- Serve a hatch until nobody in its line can go on: each turn ends one wait (R231). -/
def State.hatchServe (s : State) (t h : Nat) : State :=
  s.hatchRun t h ((s.team t).poppers.length + (s.team t).pushers.length + 1)

/-! ### Barriers (R225 to R227) -/

/-- The scope of a barrier level. -/
def levelScope : Level → Scope
  | .team => .team
  | .suite => .suite
  | .die => .die
  | .grid => .pkg
/-- The number of a level. -/
def levelNum : Level → Nat
  | .team => 0
  | .suite => 1
  | .die => 2
  | .grid => 3
/-- The levels. -/
def levels : List Level := [.team, .suite, .die, .grid]

/-- The instance of a level's barrier that a team takes part in. -/
def State.barInst (s : State) (t : Nat) (l : Level) : Nat :=
  match l with
  | .team => t
  | .suite => (s.team t).gang
  | .die => dieOf (s.team t).core
  | .grid => 0

/-- The barrier of a grid's level and instance; phase 0 at the start (R226). -/
def State.barUnit (s : State) (grid : Nat) (l : Level) (inst : Nat) : BarUnit :=
  (s.bars.find? fun b => b.grid == grid && b.level == l && b.inst == inst).getD ⟨grid, l, inst, 0, []⟩
/-- Replace a barrier. -/
def State.setBar (s : State) (b : BarUnit) : State :=
  { s with bars := b :: s.bars.filter fun x => !(x.grid == b.grid && x.level == b.level && x.inst == b.inst) }

/-- The teams of a barrier instance that are placed or saved. -/
def State.barTeams (s : State) (grid : Nat) (l : Level) (inst : Nat) : List (Nat × Team) :=
  s.teams.filter fun e => e.2.grid == grid && s.barInst e.1 l == inst

/-- A group's number among a grid's barrier participants. -/
def partNum (t num : Nat) : Nat := t * 16 + num

/-- What a group knows of a level. -/
def Group.bar (g : Group) (l : Level) : BarSt := get {} g.mio.bars (levelNum l)
/-- Replace it. -/
def Group.setBarSt (g : Group) (l : Level) (b : BarSt) : Group := { g with mio := { g.mio with bars := put g.mio.bars (levelNum l) b } }

/-- Enter an operation at the tail of a group's store FIFO (R66). -/
def Group.enqueue (g : Group) (op : FOp) (pc : W64 := 0) (mask : Mask := 0) (src : List (Nat × Nat) := []) : Group :=
  { g with mio := { g.mio with seq := g.mio.seq + 1, fifo := g.mio.fifo ++ [⟨g.mio.seq, g.fdepth, op, pc, mask, src⟩] } }

/-- Lanes `m` begin a wait anew: an older acquire of theirs with that wait is over. -/
def renewed (w : Wait) (m : Mask) (l : List (Wait × Mask × Nat)) : List (Wait × Mask × Nat) :=
  (l.map fun a => if a.1 == w then (a.1, a.2.1 &&& ~~~ m, a.2.2) else a).filter fun a => a.2.1 != 0
/-- An acquire has not completed: lanes that carry it still wait. -/
def Group.openAcq (g : Group) (a : Wait × Mask × Nat) : Bool := g.lanes.waits.any fun w => w.1 == a.1 && (w.2 &&& a.2.1) != 0
/-- Lanes that wait carry an acquire, which takes its place in the group's program order (R219, R284); those that are over are forgotten. -/
def Group.acquires (g : Group) (w : Wait) (m : Mask) : Group :=
  { g with mio := { g.mio with seq := g.mio.seq + 1, acqs := (renewed w m g.mio.acqs).filter g.openAcq ++ [(w, m, g.mio.seq)] } }
/-- An acquire before a place in the program order has not completed (R219). -/
def Group.acqOpen (g : Group) (seq : Nat) : Bool := g.mio.acqs.any fun a => decide (a.2.2 < seq) && g.openAcq a

/-- A level other than the team's publishes the interval (R51, R210). -/
def State.publishBar (s : State) (t : Nat) (l : Level) : State := if l = .team then s else s.publish t

/-- A group arrives when every lane of its top frame that has not finished has issued the barrier, and its matrix operations are complete
(R226, R256): the interval is published (R210), the arrival release enters the store FIFO, and the acquire of the lanes of `bar` follows it (LOG 145);
the lanes of `bar.arr` go on. -/
def State.tryArrive (s : State) (k : Nat) (l : Level) : State :=
  let g := s.grp k
  let b := g.bar l
  if b.issued = 0 || b.arrived || (g.running &&& ~~~ b.issued) != 0 || s.mxOf k != [] || !g.live then s
  else
    let arr := g.waitMask (· == .barArr l)
    let u := s.barUnit g.grid l (s.barInst g.team l)
    let g := g.endWaits (· == .barArr l)
    let g := g.setBarSt l { issued := 0, arrived := true, memo := if arr = 0 then b.memo else some u.phase }
    let g := g.enqueue (.rel (levelScope l) (.arrive l))
    let m := g.waitMask (· == .bar l)
    (s.publishBar g.team l).setGrp k (if m = 0 then g else g.acquires (.bar l) m)

/-- Try every level. -/
def State.tryArrives (s : State) (k : Nat) : State := levels.foldl (fun s l => s.tryArrive k l) s

/-- A group's part in the completion of a phase (R226): waiters acquire and continue. -/
def State.barWake (s : State) (k : Nat) (l : Level) (phase : Nat) : State :=
  let g := s.grp k
  let b := g.bar l
  let done := match b.memo with
    | some p => decide (p < phase)
    | none => true
  -- lanes that wait at a barrier of the next phase have issued it since the group arrived
  let any := g.waitMask (fun w => w == .barWt l && done) ||| (g.waitMask (· == .bar l) &&& ~~~ b.issued)
  let g := g.endWaits (fun w => w == .barWt l && done)
  let g := g.endWaitsOf (~~~ b.issued) (· == .bar l)
  let g := g.setBarSt l { b with arrived := false, memo := if (s.grp k).waitMask (· == .barWt l) != 0 && done then none else b.memo }
  let s := s.setGrp k g
  if any = 0 then s else s.acquireBy k (levelScope l)

/-- Take a checkpoint of a guarded team: a new, unpublished interval starts (R49, R51). -/
def State.checkpoint (s : State) (t : Nat) : State :=
  let gr := s.grid (s.team t).grid
  if !gr.guarded then s
  else
    let s := s.slotsBack t
    let tm := s.team t
    let mine (k : Nat) : Bool := (s.grp k).team == t
    let ck : Ckpt := { groups := s.groupsOf t, scr := tm.scr, hatch := tm.hatch, xq := tm.xq,
                       sems := (List.range gr.nsem).map fun i => s.sem tm i
                       pushers := tm.pushers, poppers := tm.poppers
                       wq := (s.vf gr.vf).wqs.flatMap fun w => (w.2.line.filter fun r => mine r.grp).map fun r => (w.1, r)
                       preqs := s.preqs.filter fun r => r.2.team == t && !r.2.wd }
    s.setTeam t { tm with guard := { ckpt := some ck } }

/-- Cancel requests of a group's that are outside it: hatch waits, frame waits, work-queue sleep, pantry requests, matrix operations
(R53, R277). -/
def State.withdraw (s : State) (k : Nat) : State :=
  let t := (s.grp k).team
  let tm := s.team t
  let s := s.setTeam t { tm with pushers := tm.pushers.filter (fun x => x.2.1 != k), poppers := tm.poppers.filter fun x => x.2.1 != k }
  let co := (s.core (coreOf k)).unlined k
  let s := s.setCore (coreOf k) { co with mx := co.mx.filter fun m => m.grp != k }
  let s := { s with studies := s.studies.map fun (c : Nat × StudyCore) => (c.1, { c.2 with mx := c.2.mx.filter fun m => m.grp != k }) }
  { s with
    vfs := s.vfs.map fun v => (v.1, { v.2 with wqs := v.2.wqs.map fun w => (w.1, { w.2 with line := w.2.line.filter fun r => r.grp != k }) })
    preqs := (s.preqs.filter fun p => !(p.2.grp == k && (p.2.st == 1 || p.2.st == 3))).map fun (p : Nat × PReq) =>
      if p.2.grp == k && p.2.st != 4 then (p.1, { p.2 with wd := true }) else p }

/-! ### Jobs: cancellation (R241) -/

/-- A job leaves the table: its successors' counts fall. -/
def Core.removeJob (c : Core) (j : Nat) : Core :=
  { c with jobs := (drop c.jobs j).map fun e => (e.1, { e.2 with preds := e.2.preds.filter (· != j) }) }

/-- Jobs that are cancelled with those in a list: successors issued by the same team, transitively. -/
def Core.cancelSet (c : Core) (js : List Nat) : Nat → List Nat
  | 0 => js
  | n + 1 =>
    let more := (c.jobs.filter fun e => !js.contains e.1 &&
      e.2.preds.any fun p => js.contains p && (match get? c.jobs p with
        | some q => q.team == e.2.team
        | none => false)).map Prod.fst
    if more.isEmpty then js else c.cancelSet (js ++ more) n

/-- Cancel jobs with their successors of the same team (R241); the number cancelled. -/
def State.cancelJobs (s : State) (c : Nat) (js : List Nat) : State × Nat :=
  let all := (s.core c).cancelSet (js.filter fun j => (get? (s.core c).jobs j).isSome) 64
  (s.setCore c (all.foldl Core.removeJob (s.core c)), all.length)

/-! ### Rollback (R52, R53, R454) -/

/-- Drain a group's store FIFO: stores, `poison` and atomics are performed in order (R454), and what the atomics read is recorded (R317). -/
def State.drainAll (s : State) (k : Nat) : State :=
  let g := s.grp k
  let gr := s.gridOf g
  let c := coreOf k
  let asn := s.asnOf gr.vf
  let s := g.mio.fifo.foldl (fun s e => match e.op with
    | .store items => s.storeAll g.team c gr.fused asn items
    | .poison items => items.foldl (fun s a => s.poisonOne g.team c gr.fused asn a) s
    | .atom op wide _ items _ => items.foldl (fun s it => (s.atomOne g.team c gr.fused asn op wide it.1 it.2.1 it.2.2).1.recordRead g.team it.1) s
    | .rel _ _ => s) s
  let g := s.grp k
  s.setGrp k { g with mio := { g.mio with fifo := [] } }

/-- The frames whose rows have not left them since the checkpoint, of a group and its place: those that no pop has freed and no spill has taken (R187).
A group that has retired or dissolved since keeps its rows (R37). -/
def Guardd.resident (gd : Guardd) (cur : Option Group) (k d : Nat) : Bool :=
  let fs := match gd.held.find? fun h => h.1 == k with
    | some h => h.2
    | none => (cur.map Group.frames).getD []
  !gd.popped.contains (k, d) && decide (d < fs.length) && !(fs.getD (fs.length - 1 - d) {}).spilled

/-- A row of the checkpoint restored (R52): the copy that the shadow pool holds, whose restoring write clears its poison (R435), or the row where it
stands, if it has not been copied (R187). -/
def Guardd.backRow (gd : Guardd) (k : Nat) (old : Group) (cur : Option Group) (d r : Nat) : Row :=
  let o := old.ownerRow d r
  let now := match gd.held.find? fun h => h.1 == k with
    | some h => some { old with frames := h.2 }
    | none => cur
  match if gd.shadow.contains (k, o.1, o.2) then none else now with
  | some g => if o.1 < g.frames.length then g.rowAt o.1 o.2 else old.rowAt d r
  | none => { old.rowAt d r with px := 0 }

/-- A group of the checkpoint restored: everything but %unw and %xqsel, its pace count and a mark; frames that are no longer resident stand in the cellar
(R52, R187, R199). -/
def restoreGroup (gd : Guardd) (k : Nat) (old : Group) (cur : Option Group) : Group :=
  let u := match cur with
    | some g => (g.regs.unw, g.regs.xqsel)
    | none => (old.regs.unw, old.regs.xqsel)
  let rows (d n off : Nat) : FMap Row :=
    ((List.range n).map fun r => (r, gd.backRow k old cur d (off + r))).filter fun x => x.2 != {}
  { old with
    frames := old.frames.zipIdx.map fun x =>
      let d := old.fdepth - x.2
      { x.1 with v := rows d x.1.nv 0, m := rows d x.1.nm 64, spilled := !gd.resident cur k d, kept := 0, away := false }
    regs := { old.regs with unw := u.1, xqsel := u.2, valid := 0, count := 0 }
    mio := { old.mio with fifo := [], loads := [] }
    park := none, due := [], stall := none, replay := none
    study := { pace := (cur.getD old).study.pace, mark := (cur.getD old).study.mark } }

/-- The scratchpad of a team with its logged lines as they stood at their first write (R49, R52): the write of a whole line clears its poison (R435), and
in the reserve that of the handles (R230); `alloc` is where the reserve starts (LOG 98). -/
def Team.scrBack (t : Team) (alloc : Nat) : Team :=
  { t with scr := t.guard.scrLog.foldl (fun m l => m.writeN (64 * l.1) l.2) t.scr
           scrPx := t.scrPx.filter fun w => (get? t.guard.scrLog (w / 16)).isNone
           hatchPx := t.hatchPx.filter fun x => (get? t.guard.scrLog (alloc / 64 + x.1)).isNone }

/-- What the lanes of lower frames waited for at a checkpoint is asked for again: hatches, work queues, pantry items (R53); a pantry request of a team that lane
execution has left for a pre-emption waits for its resume (R55, R56, R277). -/
def State.reissue (s : State) (t : Nat) (ck : Ckpt) : State :=
  let tm := s.team t
  let s := s.setTeam t { tm with pushers := ck.pushers, poppers := ck.poppers }
  let vf := (s.grid tm.grid).vf
  let s := ck.wq.foldl (fun s w => match get? (s.vf vf).wqs w.1 with
    | some q => s.setVf vf { s.vf vf with wqs := put (s.vf vf).wqs w.1 { q with line := q.line ++ [w.2] } }
    | none => s) s
  let st := if (s.grid tm.grid).run.acks.contains .lane then 4 else 0
  ck.preqs.foldl (fun s r => { s with preqs := put s.preqs r.1 { r.2 with st := if r.2.st ≤ 2 then st else r.2.st } }) s

/-- Restore one logged line at its home (R454): the L1 copy is dropped, the visitor copy written home and dropped, the line written whole, which clears
its poison (R435). -/
def State.restoreLine (s : State) (c : Nat) (fused : Bool) (asn : Option Nat) (e : Nat × (List Byte × Nat × Bool)) : State :=
  let cc := l1Core fused c e.1
  let co := s.core cc
  let s := s.setCore cc ({ co with l1 := drop co.l1 e.1 }.skips (· == e.1))
  let s := s.visitorDrop (dieOf c) e.1
  let s := s.lineTrip (dieOf c) (lineAddr e.1) e.2.2.2
  let s := { s with mem := { s.mem with dev := s.mem.dev.writeN (lineAddr e.1) e.2.1 } }
  let s := (List.range 4).foldl (fun s x => s.setDevPx (lineAddr e.1 / 32 + x) false) s
  s.markDirty asn e.2.2.1

/-- Return a guarded team to its last checkpoint (R52, R53, R454). -/
def State.rollback (s : State) (t : Nat) : State :=
  let gr := s.grid (s.team t).grid
  let c := (s.team t).core
  let asn := s.asnOf gr.vf
  let ks := (s.groups.filter fun e => e.2.team == t).map Prod.fst
  let s := ks.foldl State.lostRecords s
  let s := ks.foldl State.drainAll s
  let s := ks.foldl (fun s k => s.depart k 8) s
  let tm := s.team t
  let s := tm.guard.undo.foldl (fun s e => s.restoreLine c gr.fused asn e) s
  let s := (s.cancelJobs c tm.guard.jobs).1
  let ks := match tm.guard.ckpt with
    | some ck => ks ++ (ck.groups.map Prod.fst).filter fun k => !ks.contains k
    | none => ks
  let s := ks.foldl State.withdraw s
  let keeps (w : FrameWait) : Bool := match w.act with
    | .bin q => q != t
    | _ => true
  let s := s.setCore c { s.core c with line := (s.core c).line.filter keeps }
  let u := s.barUnit tm.grid .team t
  let s := s.setBar { u with arrived := [] }
  match tm.guard.ckpt with
  | none => s
  | some ck =>
    let now := s.groups
    let s := { s with groups := s.groups.filter fun e => e.2.team != t }
    let s := ck.groups.foldl (fun s e => s.setGrp e.1 (restoreGroup tm.guard e.1 e.2 (get? now e.1))) s
    let s := (ck.sems.zipIdx).foldl (fun s x => s.setSem tm x.2 x.1) s
    let tm := s.team t
    let s := s.setTeam t { tm.scrBack gr.alloc with
      hatch := ck.hatch, xq := ck.xq, bins := [], ghosts := []
      rbk := tm.rbk + 1
      guard := { ckpt := some ck, tries := tm.guard.tries + 1 } }
    let s := s.reissue t ck
    let s := ck.groups.foldl (fun s e => s.refillTop e.1) s
    s.serve c

/-! ### Grids: completion (R38, R304, R319 to R326) -/

/-- Open a generation of an address space (R323): the plane after it is cleared. -/
def State.openGen (s : State) (asn : Nat) : State :=
  let sp := s.space asn
  let n := sp.gen + 1
  s.setSpace asn { sp with gen := n, planes := drop sp.planes (n % 4), allDirty := sp.allDirty.filter (· != n % 4) }

/-- Write back everything a module's cores and dies hold dirty: a release at `.sys` that covers a grid (R38). -/
def State.releaseAll (s : State) : State :=
  let s := (s.cores.map Prod.fst).foldl (fun s c => s.release c false .sys) s
  (s.dies.map Prod.fst).foldl (fun s d => s.visitorsBack d true) s

/-- The attic base of a grid. -/
def Grid.attic (g : Grid) : Nat := match g.rl with
  | some r => r.attic
  | none => fieldAt g.card 80 8

/-- The address of a grid's completion record, 0 for none. -/
def Grid.complAddr (g : Grid) : Nat := fieldAt g.card 88 8

/-- The attic header's last fields at completion (R319): grid, state 1, rounds, gen, teams and rerun. -/
def State.atticDone (s : State) (k : Nat) : Option State :=
  let gr := s.grid k
  let asn := s.asnOf gr.vf
  let a := gr.attic
  let gen := (asn.map fun n => (s.space n).gen).getD 0
  let rounds := gr.rl.elim 0 Relaunch.round
  let w (s : State) (off : Nat) (b : List Byte) : Option State := s.fwWrite 4 asn (a + off) b
  ((w s 640 (leBytes 4 gr.num.toNat)).bind fun s => w s 644 (leBytes 1 1 ++ leBytes 1 rounds ++ leBytes 2 0)).bind fun s =>
    w s 648 (leBytes 8 gen ++ leBytes 8 gr.teams ++ leBytes 8 gr.run.ran)

/-- The completion record (R304). -/
def State.complRecord (s : State) (k : Nat) : List Byte :=
  let gr := s.grid k
  leBytes 4 gr.num.toNat ++ leBytes 1 gr.run.status ++ leBytes 3 0 ++ leBytes 2 gr.run.overrun.toNat ++ leBytes 6 0 ++
  leBytes 8 gr.run.ran ++ leBytes 8 gr.run.rollbacks ++ leBytes 8 (s.die 4).count.toNat ++ zeros 24

/-- Summaries of the bound registers that count (R451). -/
def State.boundSummaries (s : State) (k : Nat) : State :=
  (s.grid k).bds.foldl (fun s e =>
    if e.2.act == 1 && decide (0 < e.2.count) then s.homePush k (s.gridRec k 0 2 0x0E02 0 (e.1 + e.2.count * 2 ^ 32)) else s) s

/-- Resources and lists that outlive no grid. -/
def State.dropGrid (s : State) (k : Nat) : State :=
  { s with
    teams := s.teams.filter fun e => e.2.grid != k
    groups := s.groups.filter fun e => e.2.grid != k
    bars := s.bars.filter fun b => b.grid != k
    mem := { s.mem with parlours := s.mem.parlours.filter (fun p => p.1.1 != k), parPx := s.mem.parPx.filter fun p => p.1 != k } }

/-- The end of a grid with a status (R304, R405): summaries, record, command. -/
def State.endGrid (s : State) (k st : Nat) : State :=
  let gr := s.grid k
  let s := s.setGrid k { gr with run := { gr.run with done := true, status := st, parlour := [] } }
  let s := s.boundSummaries k
  let s := s.dropGrid k
  let s := if gr.complAddr = 0 then s
    else match s.fwWriteSound 4 (s.asnOf gr.vf) gr.complAddr (s.complRecord k) with
    | some s => s
    | none => s.homePush k (s.gridRec k 0 2 0x0C06 gr.complAddr 0)
  let s := match gr.cmd with
    | some i => s.cmdDone gr.vf gr.home i (if st = 0 then 0 else 5)
    | none => s
  (s.cores.map Prod.fst).foldl State.serve s

/-- Resolve the edges that a grid's completion resolves (R305). -/
def State.resolveDone (s : State) (k : Nat) : State :=
  { s with grids := s.grids.map fun e => (e.1, { e.2 with edges := e.2.edges.map fun x => if x.1 == k then (x.1, x.2.1, true) else x }) }

/-- Contain grids and, transitively, those with an unresolved edge from one that is contained (R406, R433). A recordable grid that is contained opens no
generation (LOG 142). -/
def State.containList (s : State) : List (Nat × Nat × Option Nat) → Nat → State
  | [], _ => s
  | _, 0 => s
  | (k, st, from_) :: rest, n + 1 =>
    let gr := s.grid k
    if gr.run.done then s.containList rest n
    else
      let s := match from_ with
        | some p => s.contPush k (s.gridRec k 0 3 0x0C05 0 p)
        | none => s
      let ks := (s.groups.filter fun e => e.2.grid == k).map Prod.fst
      let s := ks.foldl (fun s g => (if (s.grp g).studied || (s.grp g).study.phase == 1 then s.leaveStudy g else s).withdraw g) s
      let s := { s with preqs := s.preqs.filter fun r => !(r.2.st == 4 && (s.team r.2.team).grid == k) }
      let s := (s.teams.filter fun e => e.2.grid == k).foldl (fun s e =>
        (s.cancelJobs e.2.core (((s.core e.2.core).jobs.filter fun j => j.2.team == e.1).map Prod.fst)).1) s
      let keeps (w : FrameWait) : Bool := match w.act with
        | .bin t => (s.team t).grid != k
        | _ => true
      let s := { s with cores := s.cores.map fun (c : Nat × Core) => (c.1, { c.2 with line := c.2.line.filter keeps }) }
      let deps : List (Nat × Nat × Option Nat) :=
        (s.grids.filter fun (e : Nat × Grid) => !e.2.run.done && e.2.edges.any fun x => x.1 == k && !x.2.2).map fun e => (e.1, 3, some gr.num.toNat)
      let s := s.releaseAll
      let gr := s.grid k
      let rbk := (s.teams.filter fun e => e.2.grid == k).foldl (fun a e => a + e.2.rbk.toNat) gr.run.rollbacks
      let s := (s.setGrid k { gr with run := { gr.run with rollbacks := rbk } }).endGrid k st
      s.containList (rest ++ deps) n

/-- Contain some grids with all that depend on them: each grid is contained once, and then enters as many as there are grids at most (R433). -/
def State.containAll (s : State) (l : List (Nat × Nat × Option Nat)) : State := s.containList l (l.length + s.grids.length * s.grids.length + 1)
/-- Contain a grid with a completion status (R406 step 3, R405). -/
def State.containGrid (s : State) (k st : Nat) : State := s.containAll [(k, st, none)]

/-- A grid completes normally (R38, R304, R323): the last generation opens for a recordable grid, its attic is finished, everything is
released at `.sys`, edges resolve. -/
def State.completeGrid (s : State) (k : Nat) : State :=
  let gr := s.grid k
  let s := if gr.recordable && gr.rl.isNone then
      match s.asnOf gr.vf with
      | some n => s.openGen n
      | none => s
    else s
  let s := s.releaseAll
  let r := if gr.recordable || gr.rl.isSome then s.atticDone k else some s
  match r with
  | some s => (s.endGrid k 0).resolveDone k
  | none =>
    let s := s.contPush k (s.gridRec k 0 3 0x0C03 (gr.attic + 640) 0)
    s.containGrid k 1

/-! ### Relaunch (R324 to R326) -/

/-- Whether a granule range meets a dirty granule of generations lo to hi (R321, R325). -/
def Space.meetsDirty (sp : Space) (lo hi first last : Nat) : Bool :=
  (List.range (hi + 1 - lo)).any fun i =>
    let g := lo + i
    decide (g + 3 < sp.gen) || sp.allDirty.contains (g % 4) || (get [] sp.planes (g % 4)).any fun x => decide (first ≤ x) && decide (x ≤ last)

/-- Some granule of the space is dirty in generations lo to hi. -/
def Space.anyDirty (sp : Space) (lo hi : Nat) : Bool := sp.meetsDirty lo hi 0 (2 ^ 52)

/-- The attic entry of a team (R320). -/
def State.atticEntry (s : State) (k e : Nat) : Option (List Byte) :=
  let gr := s.grid k
  s.fwRead (s.asnOf gr.vf) (gr.attic + 1024 + 128 * e) 128

/-- A header field of an attic entry. -/
def entF (b : List Byte) (lo n : Nat) : Nat := fieldAt b 0 8 / 2 ^ lo % 2 ^ n

/-- An entry that breaks R320 counts as V = 0 (R432). -/
def entryBroken (b : List Byte) : Bool :=
  entF b 27 37 != 0 || (List.range 15).any fun r => decide (entF b 16 4 ≤ r) && fieldAt b (8 + 8 * r) 8 != 0

/-- The read set of an entry meets a granule dirty in generations lo to hi. -/
def entryDirty (sp : Space) (b : List Byte) (lo hi : Nat) : Bool :=
  if entF b 26 1 = 1 then sp.anyDirty lo hi
  else (List.range (entF b 16 4)).any fun r =>
    let w := fieldAt b (8 + 8 * r) 8
    sp.meetsDirty lo hi (w % 2 ^ 36) (w % 2 ^ 36 + w / 2 ^ 36)

/-- The full generation of an entry (R324): the largest not above the header's with the entry's low bits. -/
def fullGen (hdr low : Nat) : Nat := if low ≤ hdr % 65536 then hdr / 65536 * 65536 + low else hdr / 65536 * 65536 + low - 65536

/-- The address space of a grid. -/
def State.spaceOf (s : State) (k : Nat) : Space := s.space ((s.asnOf (s.grid k).vf).getD 0)

/-- The relaunch stops (R326): the entries of the teams not rerun move to the last tested generation, and the grid completes; a write that fails contains
it (R432). -/
def State.relaunchStop (s : State) (k : Nat) (r : Relaunch) : State :=
  let gr := s.grid k
  let asn := s.asnOf gr.vf
  let at_ (e : Nat) : Nat := gr.attic + 1024 + 128 * e
  let write (acc : Except Nat State) (e : Nat) : Except Nat State := acc.bind fun s =>
    match (s.atticEntry k e).bind fun b => s.fwWrite 4 asn (at_ e) (leBytes 2 ((r.q - 1) % 65536) ++ (b.drop 2).take 6) with
    | none => .error (at_ e)
    | some s => .ok s
  match r.rest.foldl write (.ok s) with
  | .ok s => s.completeGrid k
  | .error a => (s.contPush k (s.gridRec k 0 3 0x0C03 a 0)).containGrid k 1

/-- The first test of a relaunch (R325): a generation opens, and the teams to rerun are found. A relaunch that reruns no team has round 0 (LOG 129). -/
def State.relaunchBegin (s : State) (k : Nat) : State :=
  let gr := s.grid k
  match gr.rl, s.asnOf gr.vf with
  | some r, some asn =>
    let s := s.openGen asn
    let sp := s.space asn
    let q := sp.gen
    let hdr := (s.fwRead (some asn) (gr.attic + 648) 8).elim 0 leNat
    let dirty (e : Nat) : Bool :=
      match s.atticEntry k e with
      | none => true
      | some b => r.all || entF b 20 1 = 0 || entF b 25 1 = 1 || entryBroken b || entryDirty sp b (fullGen hdr (entF b 0 16) + 1) (q - 1)
    let all := List.range gr.teams
    let todo := all.filter dirty
    let r := { r with todo := todo, rest := all.filter (fun e => !dirty e), q := q, begun := true, round := if todo = [] then 0 else 1 }
    let s := s.setGrid k { gr with rl := some r }
    if todo = [] then s.relaunchStop k r else s
  | _, _ => s

/-- A round of a relaunch ends (R325): a generation opens and the next round's teams are tested. -/
def State.relaunchRound (s : State) (k : Nat) (r : Relaunch) : State :=
  let gr := s.grid k
  match s.asnOf gr.vf with
  | none => s
  | some asn =>
    let s := s.openGen asn
    let sp := s.space asn
    let q' := sp.gen
    let dirty (e : Nat) : Bool :=
      match s.atticEntry k e with
      | none => true
      | some b => entryDirty sp b r.q (q' - 1)
    let todo := if r.round = 5 then [] else if r.round = 4 then r.rest else r.rest.filter dirty
    let r' := { r with todo := todo, rest := r.rest.filter (fun e => !todo.contains e), q := q', round := if todo = [] then r.round else r.round + 1 }
    let s := s.setGrid k { gr with rl := some r' }
    if todo = [] then s.relaunchStop k r' else s

/-- The attic entry that a team's recorder gives (R320). -/
def Recorder.entry (r : Recorder) (round : Nat) : List Byte :=
  let rs := if r.whole then [] else r.ranges
  leBytes 8 (r.gen % 65536 + rs.length * 65536 + 2 ^ 20 + (if r.merged then 2 ^ 21 else 0) + round * 2 ^ 22 +
    (if r.host then 2 ^ 25 else 0) + (if r.whole then 2 ^ 26 else 0)) ++
  (List.range 15).flatMap fun i => match rs[i]? with
    | some x => leBytes 8 (x.1 + (x.2 - x.1) * 2 ^ 36)
    | none => leBytes 8 0

/-! ### Retirement (R37, R38) -/

/-- The parlour of a grid is released on the dies where no team of it stands or is saved, and none can come (R18): a saved team resumes on the die it
left (LOG 35). -/
def State.parlourBack (s : State) (k : Nat) : State :=
  let g := s.grid k
  let tms := s.teams.filter fun e => e.2.grid == k
  let noMore (d : Nat) : Bool := if g.attr 3 || g.attr 4 then g.run.blocks.contains d else decide (g.teams ≤ g.run.next)
  let stays (d : Nat) : Bool := !noMore d || tms.any fun e => dieOf e.2.core == d
  s.setGrid k { g with run := { g.run with parlour := g.run.parlour.filter stays } }

/-- A team whose groups have all retired and whose jobs have all completed retires (R38). -/
def State.tryTeamRetire (s : State) (t : Nat) : State :=
  let tm := s.team t
  let k := tm.grid
  let gr := s.grid k
  if !tm.live || s.groupsOf t != [] || tm.bins != [] || (s.core tm.core).jobs.any (fun j => j.2.team == t) then s
  else
    let w := if gr.recordable || gr.rl.isSome then
        s.fwWrite 4 (s.asnOf gr.vf) (gr.attic + 1024 + 128 * tm.lin) (tm.recd.entry (gr.rl.elim 0 Relaunch.round))
      else some s
    match w with
    | none => (s.contPush k (s.gridRec k tm.lin 3 0x0C03 (gr.attic + 1024 + 128 * tm.lin) 0)).containGrid k 1
    | some s =>
      let s := { s.msg (dieOf tm.core) 4 with teams := drop s.teams t }
      let gr := s.grid k
      let s := s.setGrid k { gr with run := { gr.run with retired := gr.run.retired + 1, rollbacks := gr.run.rollbacks + tm.rbk.toNat } }
      let gr := s.grid k
      let s := s.serve tm.core
      let left := s.teams.any fun e => e.2.grid == k
      let s := s.parlourBack k
      match gr.rl with
      | some r => if left || r.todo != [] || !r.begun then s else s.relaunchRound k r
      | none => if left || decide (gr.run.next < gr.teams) then s else s.completeGrid k

/-- Complete a phase when every participant has arrived and no lane of theirs sits in a bin (R226); a team that is saved has no part in it until it resumes, and one
that stands at its team barrier to be saved completes no other phase of that. The study return of RB, the checkpoint and the save of a pre-empted team follow
a team barrier (R49, R54, R354). -/
def State.tryPhase (s : State) (grid : Nat) (l : Level) (inst : Nat) : State :=
  let u := s.barUnit grid l inst
  let tms := s.barTeams grid l inst
  let parts := s.groups.filter fun e => e.2.live && tms.any fun t => t.1 == e.2.team
  let saved := tms.any fun t => t.2.pre == 2 && (!t.2.live || l == .team)
  if u.arrived = [] || saved || tms.any (fun t => t.2.bins != []) ||
      !parts.all (fun e => u.arrived.contains (partNum e.2.team e.2.num)) then s
  else
    let s := s.setBar { u with phase := u.phase + 1, arrived := [] }
    let s := if l = .grid then (s.gridDies grid).foldl (fun s d => s.msg 4 d) s else s
    -- the groups that wait there, at `bar` or at `bar.wt` (R354)
    let waited := (parts.filter fun e => e.2.waitMask (fun w => w == .bar l || w == .barWt l) != 0).map Prod.fst
    let s := parts.foldl (fun s e => s.barWake e.1 l (u.phase + 1)) s
    -- a completion at a wider level publishes the intervals of the teams that take part (R51)
    if l != .team then parts.foldl (fun s e => s.tryArrive e.1 l) (tms.foldl (fun s t => s.publish t.1) s)
    else
      let s := parts.foldl (fun s e =>
        let g := s.grp e.1
        if g.study.phase == 2 && g.study.ctl.getLsbD 11 && waited.contains e.1 then s.startReturn e.1 2 else s) s
      let s := (s.checkpoint inst).serve (s.team inst).core
      let s := parts.foldl (fun s e => s.tryArrive e.1 l) s
      if (s.team inst).pre = 1 then s.setTeam inst { s.team inst with pre := 2 } else s

/-- The phases that a team's standing at a barrier as saved has held back are tried again (R431). -/
def State.retryPhases (s : State) (t : Nat) : State := levels.foldl (fun s l => s.tryPhase (s.team t).grid l (s.barInst t l)) s

/-- A group's arrival reaches the barrier (R226); that of a grid stands on the hub die (LOG 120). -/
def State.arrive (s : State) (k : Nat) (l : Level) : State :=
  let g := s.grp k
  let s := if l = .grid then s.msg (dieOf (coreOf k)) 4 else s
  let inst := s.barInst g.team l
  let u := s.barUnit g.grid l inst
  (s.setBar { u with arrived := insertNat (partNum g.team g.num) u.arrived }).tryPhase g.grid l inst

/-- A group all of whose lanes have finished and whose accesses have ended retires (R37). -/
def State.tryRetire (s : State) (k : Nat) : State :=
  let g := s.grp k
  if !g.live || (g.lanes.present &&& ~~~ g.lanes.fin) != 0 || g.mio.loads != [] || g.mio.fifo != [] || g.mio.pans != [] || s.mxOf k != [] ||
      g.park.isSome || g.stall.isSome then s
  else
    let s := s.depart k 7
    let g := s.grp k
    let s := { s with groups := drop s.groups k }.setCore (coreOf k) ((s.core (coreOf k)).unlined k)
    let tm := s.team g.team
    let s := if (s.gridOf g).guarded then s.setTeam g.team { tm with guard := { tm.guard with held := tm.guard.held ++ [(k, g.frames)] } } else s.slotsBack g.team
    let s := s.serve (coreOf k)
    -- its number takes part in no phase any more: a bin's group may take it (R226)
    let s := { s with bars := s.bars.map fun (b : BarUnit) => if b.grid = g.grid then { b with arrived := b.arrived.filter (· != partNum g.team g.num) } else b }
    let s := levels.foldl (fun s l => s.tryPhase g.grid l (s.barInst g.team l)) s
    s.tryTeamRetire g.team

/-- Roll a team back with a class 3 record, or contain its grid when an entry that the rollback needs is damaged (R407, R443). -/
def State.rollbackOr (s : State) (t : Nat) (r : Option Rec) : State :=
  let k := (s.team t).grid
  match (s.team t).guard.damaged with
  | some a => (s.contPush k { s.gridRec k (s.team t).lin 3 0x0D08 a 0 with flags := 8 }).containGrid k 1
  | none => match r with
    | some r => (s.contPush k { r with flags := r.flags ||| 8 }).rollback t
    | none => s.rollback t

/-- Contain a team: rollback when it is guarded and unpublished and has rollbacks left, otherwise its grid, with a class 3 record of a kind
(R407, R440). -/
def State.containTeam (s : State) (t st : Nat) (r : Rec) : State :=
  let tm := s.team t
  if (s.grid tm.grid).run.done then s
  else if s.guardOpen t && decide (tm.guard.tries < 16) then
    s.rollbackOr t (some r)
  else (s.contPush tm.grid r).containGrid tm.grid st

/-- An abort: rollback of an unpublished guarded team, otherwise the end of the grid with status 2 (R405, R407). -/
def State.abortGroup (s : State) (k : Nat) (p : Park) : State :=
  s.containTeam (s.grp k).team 2 (s.recOf k 3 p.flt p.pc (s.groupFlags k (p.cls == 1) false false))

/-- After rows changed hands on a core: serve the lines, and contain the teams of waits that can never be served (R420, R424). -/
def State.settle (s : State) (c : Nat) : State :=
  (List.range 16).foldl (fun s p =>
    let r := s.unservable c p 64
    -- one record for a team (R424)
    (r.2.foldl (fun (a : State × List Nat) x => if a.2.contains x.1 then a else (a.1.containTeam x.1 1 x.2, x.1 :: a.2)) (r.1, [])).1) (s.serve c)

end Sys2Proof.Machine
end

