-- ==== Sys2Proof/Machine/Ops.lean ====
section
/-! DEFINITION. Issuing an instruction: hazards, the order of faults (R134, R412), the effect, the bypass slots (R116); taking an exception
(R195, R196, R399, R400, R420, R439) and returning from one (R197, R399, R418). -/

namespace Sys2Proof.Machine

/-- The outcome of a step. -/
abbrev Out := Host.Outcome State Fault Refusal

/-! ### Taking an exception -/

/-- The handler that the 16 bytes of a trap-vector entry name (R194, R418): its address, nv, nm16. -/
def vectorEntry (b : List Byte) : Option (W64 × Nat × Nat) :=
  let h := fieldAt b 0 8
  let nv := fieldAt b 8 1
  let nm := fieldAt b 9 1
  if h = 0 ∨ h % 2 = 1 ∨ nv = 0 ∨ 60 < nv ∨ 8 < nm ∨ fieldAt b 10 6 ≠ 0 then none
  else some (BitVec.ofNat 64 h, nv, nm)
/-- The handler of entry `e` of a VF's trap vector. A base of 0 is no vector (LOG 3); an entry that cannot be read has no handler (LOG 14). -/
def State.vector (s : State) (vf e : Nat) : Option (W64 × Nat × Nat) :=
  let base := (s.vf vf).vector.toNat
  if base = 0 then none else (s.fwRead (s.asnOf vf) (base + 16 * e) 16).bind vectorEntry
/-- The read of a trap-vector entry for a group: its messages go from the group's die to the entry's home and back (R23, R24, R361). -/
def State.vectorAsk (s : State) (k e : Nat) : State :=
  let gr := s.gridOf (s.grp k)
  let base := (s.vf gr.vf).vector.toNat
  if base = 0 then s else (s.fwGet (dieOf (coreOf k)) gr.vf gr.home (base + 16 * e) 16).2
/-- The read of a trap-vector entry waits for the link (R462). -/
def State.vectorHeld (s : State) (vf e : Nat) : Bool :=
  let base := (s.vf vf).vector.toNat
  base != 0 && s.fwHeld (s.asnOf vf) false (base + 16 * e) 16

/-- Push a frame at once when its rows are free and nobody waits; otherwise wait in line (R181, R184), failing when no spill can serve
(R424). -/
def State.takeRows (s : State) (k rows : Nat) (act : FwAct) : State :=
  (s.frameWait ⟨k, rows, act⟩).settle (coreOf k)

/-- Park a group on a fault (R400). -/
def State.parkFault (s : State) (k : Nat) (f : Flt) (why : ParkWhy) (mask : Mask) (pc : W64) (len cls : Nat) : State :=
  s.parkGroup k { (s.grp k).parkFor why f pc len with mask := mask, cls := cls }

/-- A class 2 fault of a group (R399): its next issue takes it, and a group with no lane left to issue parks. -/
def State.laterFault (s : State) (k : Nat) (d : Due) : State :=
  let g := s.grp k
  if (g.lanes.present &&& ~~~ g.lanes.fin) = 0 then s.parkFault k d.flt .fault d.mask d.pc 4 d.cls
  else s.setGrp k { g with due := g.due ++ [d] }

/-- Escalation (R420): the group parks with kind 0x050C; a second one before a trap-stack entry has been popped contains at once. -/
def State.escalate (s : State) (k : Nat) (f : Flt) (brk : Option (BitVec 16)) (mask : Mask) (pc : W64) (len : Nat) : State :=
  let g := s.grp k
  let e := escFlt f brk
  if g.regs.escalated then s.containTeam g.team 1 (s.recOf k 3 e pc (s.groupFlags k true true false))
  else
    let s := s.setGrp k { g with regs := { g.regs with escalated := true } }
    s.parkFault k e (.escal (e.aux.toNat % 65536)) mask pc len 1

/-- Enter the handler of a vector entry (R195, R196, R399): the frame may wait for rows; the slots are invalid (R426). -/
def State.enter (s : State) (k : Nat) (v : W64 × Nat × Nat) (mask : Mask) (ret : W64) (code : BitVec 16) (val : W64)
    (flt : Option (Flt × W64 × Nat)) : State :=
  let g := (s.grp k).invalidate
  let ent : TrapEnt :=
    { pcs := setPcs mask (fun _ => ret) g.lanes.pc, mask := mask, mode := g.regs.mode, code := g.regs.trapcode
      val := g.regs.trapval, depth := g.frames.length, flt := flt, wrote := false }
  let f : Frame := { nv := v.2.1, nm := 16 * v.2.2, lanes := mask, ret := ret, handler := true }
  (s.setGrp k g).takeRows k (v.2.1 + 16 * v.2.2) (.handler f v.1 ent code val)

/-- What a core captures of an instruction at its issue, for a replay (R445). -/
def Group.capture (g : Group) (mask : Mask) (pc : W64) : Replay := ⟨pc, mask, g.top, g.regs⟩

/-- Take an exception: the fault `f` of the instruction at `pc`, its issue mask `mask`, returning to `ret`. In order: the rollback of a
consumption in an unpublished interval (R439, R440); the park of a translation fault (R445); a handler (R399); escalation (R420); the park of
R400. -/
def State.raise (s : State) (k : Nat) (f : Flt) (mask : Mask) (pc ret : W64) (len cls : Nat) : State :=
  let g := s.grp k
  let gr := s.gridOf g
  let consumed := f.kind = 0x0D01 ∨ f.kind = 0x0D03 ∨ f.kind = 0x0D05
  if consumed ∧ s.guardOpen g.team ∧ (s.team g.team).guard.tries < 16 then
    s.containTeam g.team 1 (s.recOf k 3 f pc (s.groupFlags k true false false))
  else if f.kind = 0x0701 then
    s.parkGroup k { g.parkFor .fault f pc len with mask := mask, cls := cls, ops := some (g.capture mask pc) }
  else
    let v := s.vector gr.vf (f.kind / 256)
    let s := s.vectorAsk k (f.kind / 256)
    match v with
    | none => s.parkFault k f .fault mask pc len cls
    | some v =>
      if 4 ≤ g.regs.traps.length ∨ 31 ≤ g.fdepth then s.escalate k f none mask pc len
      else s.enter k v mask ret (BitVec.ofNat 16 f.kind) f.addr (some (f, pc, len))

/-- Taking a fault waits for the link, which is to bring its trap-vector entry (R462). -/
def State.raiseHeld (s : State) (k : Nat) (f : Flt) : Bool :=
  let g := s.grp k
  f.kind != 0x0701 && !((f.kind == 0x0D01 || f.kind == 0x0D03 || f.kind == 0x0D05) && s.guardOpen g.team && decide ((s.team g.team).guard.tries < 16)) &&
    s.vectorHeld (s.gridOf g).vf (f.kind / 256)

/-! ### Returning from an exception -/

/-- Pop the top frame, a handler frame, with its trap-stack entry (R197): mode, %trapcode and %trapval of the entry are restored. -/
def Group.popHandler (g : Group) : Group :=
  match g.regs.traps with
  | [] => g
  | e :: t =>
    { g with frames := g.frames.tail,
             regs := { g.regs with traps := t, mode := e.mode, trapcode := e.code, trapval := e.val, escalated := false } }

/-- Return from the handler on top (R197, R399, R418): `brk` resumes its lanes after it; a fault entry takes its answer from bits [63:62] of
%trapval if the handler has written it, and otherwise retries. -/
def State.returnFrom (s : State) (k : Nat) : State :=
  let g := s.grp k
  match g.regs.traps with
  | [] => s
  | e :: _ =>
    let ans := if e.wrote then bits g.regs.trapval 62 2 else 0
    let g' := g.popHandler
    let at_ (skip : Nat) (l : Nat) : W64 := pcOf e.pcs l + BitVec.ofNat 64 skip
    let resume (skip : Nat) : State := (s.setGrp k (g'.setPc e.mask (at_ skip))).refillTop k |>.settle (coreOf k)
    match e.flt with
    | none => resume 0
    | some (f, pc, len) =>
      if ans = 0 then resume 0
      else if ans = 1 then resume len
      else
        let s := s.setGrp k (g'.setPc e.mask (at_ 0))
        s.parkFault k f .abort e.mask pc len 1

/-! ### Issue -/

/-- What an instruction reads, writes and checks. -/
structure Op where
  /-- Length in bytes. -/
  len : Nat := 4
  /-- v sources in the order a, b, d, fw of the format, each with its number of rows. -/
  srcs : List (VSrc × Nat) := []
  /-- v destinations: first row, count. -/
  dsts : List (Nat × Nat) := []
  /-- m rows read. -/
  msrcs : List (Nat × Nat) := []
  /-- m rows written. -/
  mdsts : List (Nat × Nat) := []
  /-- Scalars read. -/
  ssrcs : List Nat := []
  /-- Scalars written. -/
  sdsts : List Nat := []
  /-- A privilege fault (R135). -/
  priv : Option Flt := none
  /-- A grid-attribute fault. -/
  attr : Option Flt := none
  /-- The entry's own checks; none of these and of the general frame and poison checks are made twice. -/
  own : Option Flt := none
  /-- The frame and poison checks of R412 items 3 and 4 are in `own`. -/
  skip : Bool := false
  /-- A fault over operand values. -/
  val : Option Flt := none
  /-- The lanes' accesses. -/
  reqs : List Req := []
  /-- The instruction stalls for a reason of its own. -/
  stall : Bool := false
  /-- It enters the store FIFO, which must have room (R209). -/
  fifo : Bool := false
  /-- It is a load or an atomic, and takes memory requests (R209). -/
  asks : Bool := false
  /-- It may wait (R39). -/
  wait : Bool := false
  /-- The lanes whose poison counts, when they are not the active ones (R438). -/
  pxMask : Option Mask := none
  /-- The lanes whose words it writes, when they are not the active ones (R168, R348). -/
  writes : Option Mask := none
  /-- It writes no v row (R115). -/
  nw : Bool := false
  /-- It has its effect with no active lane too (R166). -/
  always : Bool := false
  /-- Its v rows are written when answers land (R279). -/
  late : Bool := false
  /-- The test of a checked store once its accesses have passed (R450): the state with its counts, and a fault that stops the store or one
  that is reported after it. -/
  post : Option (State → List Acc → State × Option (Bool × Flt)) := none
  /-- m rows D of a matrix operation, which stall on no other matrix operation (R256). -/
  mxD : Bool := false
  /-- Lane addresses that it forms without an access of `reqs` (R212, R349). -/
  lines : List (Nat × Nat) := []
  /-- Rows that it clears in a frame below the one on top: the depth, the rows, the lanes (R182, R183). -/
  clears : Option (Nat × List Nat × Mask) := none
  /-- What follows once the issue has left its traces: a group that retires departs after its `exit` (R349, R360). -/
  after : State → State := id

/-- Numbers of the rows that a source covers; a slot covers none. -/
def srcRows (x : VSrc × Nat) : List Nat :=
  match x.1 with
  | .row r => (List.range x.2).map (r.val + ·)
  | .slot _ => []
/-- The rows of a source, each by the depth of the frame that owns it. -/
def Group.owners (g : Group) (x : VSrc × Nat) : List (Nat × Nat) := (srcRows x).map fun r => g.ownerRow g.fdepth r
/-- Slots that a source covers. -/
def srcSlots (x : VSrc × Nat) : List Nat :=
  match x.1 with
  | .row _ => []
  | .slot b => (List.range x.2).map (b.val + ·)
/-- Rows of a base and count. -/
def spanRows (x : Nat × Nat) : List Nat := (List.range x.2).map (x.1 + ·)

/-- A load or atomic at a place in the program order has not been accepted: its lanes wait for a request (R39, R209). -/
def Group.unasked (g : Group) (seq : Nat) : Bool := g.lanes.waits.any fun w => w.1 == .req seq
/-- The memory requests of the loads and atomics of a group at places that satisfy `p`: one for each lane (R209). -/
def Group.asked (g : Group) (p : Nat → Bool) : Nat :=
  g.mio.loads.foldl (fun a l => if p l.seq then a + l.accs.length else a) 0 +
    g.mio.fifo.foldl (fun a x => match x.op with
      | .atom _ _ _ items _ => if p x.seq then a + items.length else a
      | _ => a) 0
/-- Outstanding memory requests of a core (R209). -/
def State.requests (s : State) (c : Nat) : Nat :=
  s.groups.foldl (fun a e => if coreOf e.1 == c then a + e.2.asked fun q => !e.2.unasked q else a) 0
/-- The memory requests that a core accepts (R209). -/
def coreRequests : Nat := 1024
/-- The memory requests of a load or atomic: one for each lane, one for a load to a scalar (R209, R216). -/
def Op.asksFor (o : Op) (accs : List Acc) : Nat := if o.sdsts = [] then accs.length else 1
/-- A core can take n more memory requests (R209). -/
def State.canAsk (s : State) (c n : Nat) : Bool := decide (s.requests c + n ≤ coreRequests)
/-- The load or atomic that a group has just issued waits in the lanes of `act`: its core could not take its requests (R39, R209). -/
def State.askReq (s : State) (k : Nat) (act : Mask) : State := s.setGrp k ((s.grp k).addWait act (.req ((s.grp k).mio.seq - 1)))
/-- Loads and atomics of a group that wait take requests that have become free, in the order of its waits (R209, LOG 152). -/
def State.takeReqs (s : State) (k : Nat) : State :=
  (s.grp k).lanes.waits.foldl (fun s w => match w.1 with
    | .req q =>
      if s.canAsk (coreOf k) ((s.grp k).asked (· == q)) then s.setGrp k ((s.grp k).endWaits (· == .req q)) else s
    | _ => s) s

/-- The instruction stalls on rows or scalars that accesses in flight write, or on rows of a matrix operation (R211, R223, R256, R279); a row that it
does not write, with nw or with no active lane, holds it up no more (R40, R115); rows that the end of a frame clears count as written (R182). -/
def State.hazard (s : State) (k : Nat) (act : Mask) (o : Op) : Bool :=
  let g := s.grp k
  let top := g.fdepth
  let reads := o.srcs.flatMap srcRows ++ (o.msrcs.flatMap spanRows).map (64 + ·)
  let writes := if act = 0 && !o.always then [] else (if o.nw then [] else o.dsts.flatMap spanRows) ++ (o.mdsts.flatMap spanRows).map (64 + ·)
  let all := reads ++ writes
  let pend := g.pending.map fun p => if p.2 < 64 then aliasRow g.frames p.1 p.2 32 else p
  let pendS := g.mio.loads.flatMap fun l => match l.dst with
    | .scalar d => if d < 16 && l.depth != top then [] else [d]
    | _ => []
  let mx := s.mxOf k
  let dHit := !o.mxD && mx.any fun m => m.depth == top && m.dRows.any all.contains
  let aHit := mx.any fun m =>
    let n := (if m.sparse then 8 else 16) + mxScaleRows ⟨m.word.toNat⟩
    let n2 := 16 + mxScaleRows ⟨m.word.toNat⟩
    ((spanRows (m.a, n)) ++ spanRows (m.b, n2)).any fun r => aliasRow g.frames m.depth r 32 == (top, r) && writes.contains r ||
      (let p := aliasRow g.frames m.depth r 32; p.1 == top && writes.contains p.2)
  let cleared := match o.clears with
    | some (d, rows, m) => if m = 0 then [] else rows.map fun r => aliasRow g.frames d r 32
    | none => []
  let clHit := cleared != [] && (pend.any cleared.contains || mx.any fun m => m.vRows.any fun r => cleared.contains (aliasRow g.frames m.depth r 32))
  clHit || pend.any (fun p => p.1 == top && all.contains p.2) || (o.ssrcs ++ o.sdsts).any pendS.contains || dHit || aHit

/-- The fault of an invalid bypass slot (R116, R425), taken with no active lane too: R412's exemption is of its own list (LOG 101). -/
def Group.slotFault (g : Group) (act : Mask) (srcs : List (VSrc × Nat)) : Option Flt :=
  let bad := (srcs.flatMap srcSlots).filter fun b => !g.regs.valid.getLsbD b
  if bad = [] then none
  else some { kind := 0x0301, mask := act, addr := 0, aux := BitVec.ofNat 64 ((List.range 4).foldl (fun a b => if bad.contains b then a + 2 ^ b else a) 0) }

/-- The first row at or beyond a bound. -/
def firstBeyond (n : Nat) (rows : List Nat) : Option Nat := rows.find? fun r => n ≤ r

/-- The frame-bound faults: v rows, then m rows (R412). Of several rows beyond the bound the record names the first in the order of the fields a, b, d of
the sources and then the destinations (R410, LOG 140). -/
def Group.frameFault (g : Group) (act : Mask) (vrows mrows : List Nat) : Option Flt :=
  match firstBeyond g.top.nv vrows, firstBeyond g.top.nm mrows with
  | some r, _ => some { kind := 0x0401, mask := act, addr := BitVec.ofNat 64 g.top.nv, aux := BitVec.ofNat 64 r }
  | none, some r => some { kind := 0x0402, mask := act, addr := BitVec.ofNat 64 g.top.nm, aux := BitVec.ofNat 64 r }
  | none, none => none

/-- The lanes of a source that are poisoned. -/
def Group.srcPx (g : Group) (x : VSrc × Nat) : Mask := (srcRows x).foldl (fun m r => m ||| (g.row r).px) 0
/-- The encoded value of a source field. -/
def srcField : VSrc → Nat
  | .row r => r.val
  | .slot b => 60 + b.val

/-- The consumption of poison in source words of active lanes and in scalars: the record names the field of the first poisoned source, for m rows the
field that gives their block of sixteen (R438, R455, LOG 133). -/
def Group.poisonFault (g : Group) (act : Mask) (srcs : List (VSrc × Nat)) (ms : List (Nat × Nat)) (ss : List Nat) : Option Flt :=
  let vs := srcs.map fun x => (srcField x.1, g.srcPx x &&& act)
  let mm := ms.map fun x => (x.1 / 16, (spanRows x).foldl (fun m r => m ||| (g.mrow r).px) 0 &&& act)
  let sc := ss.map fun r => (64 + r, if (g.sreg r).px then act else 0)
  let hit := (vs ++ mm ++ sc).filter fun x => x.2 != 0
  match hit with
  | [] => none
  | x :: _ => some { kind := 0x0D03, mask := hit.foldl (fun m y => m ||| y.2) 0, addr := 0, aux := BitVec.ofNat 64 x.1 }

/-- The first fault of several. -/
def firstFault : List (Option Flt) → Option Flt
  | [] => none
  | some f :: _ => some f
  | none :: t => firstFault t

/-- The fault that an instruction takes before its addresses, in the order of R134 and R412. -/
def Group.faultBefore (g : Group) (act : Mask) (o : Op) : Option Flt :=
  let early := firstFault [if g.regs.mode then none else o.priv, g.slotFault act o.srcs]
  if early.isSome || act = 0 then early
  else firstFault [o.attr, o.own,
    if o.skip then none else g.frameFault act (o.srcs.flatMap srcRows ++ o.dsts.flatMap spanRows) (o.msrcs.flatMap spanRows ++ o.mdsts.flatMap spanRows),
    if o.skip then none else g.poisonFault (o.pxMask.getD act) o.srcs o.msrcs o.ssrcs,
    o.val]

/-- An issue counts for the pace (R346), and on a study core for the quota of `n` instructions after which a return is due (R354). -/
def Study.counted (t : Study) (n : Nat) : Study :=
  if t.phase == 2 then
    { t with pace := t.pace + 1, quota := t.quota + 1,
             due := if t.due.isNone && t.ctl.getLsbD 10 && n != 0 && decide (n ≤ t.quota + 1) then some 1 else t.due }
  else { t with pace := t.pace + 1 }
/-- The state in which an issue is counted: the pace and the quota, the issue stamp (R185), progress (R428), marks by address (R338). -/
def State.countIssue (s : State) (c : Ctx) : State :=
  let g := s.grp c.key
  let s := (s.setGrp c.key { g with age := s.issues, study := g.study.counted (bits ((s.core (coreOf c.key)).armR 1) 0 32) }).progress g.grid
  { s with issues := s.issues + 1 }.pcMatch c.key c.pc

/-- Every 64 KiB frame of a study core's shelf has a colour of a partition's mask (R390, LOG 113). -/
def State.shelfColoured (s : State) (c p : Nat) : Bool :=
  let reg := (s.study c).reg
  (List.range (min 64 ((get 0 reg 10).toNat / 65536))).all fun i => (s.part p).colour.getLsbD (((get 0 reg 9).toNat / 65536 + i) % 64)
/-- The STUDY quota of a VF on a die is reached (R340, R391). -/
def State.studyQuotaFull (s : State) (vf die : Nat) : Bool :=
  decide (bits (s.vf vf).quota0 50 7 ≤ (List.range 4).foldl (fun a i =>
    a + ((s.study (die * 64 + 48 + i)).slots.filter fun e => (s.gridOf (s.grp e.2)).vf == vf).length) 0)
/-- Where a group that issues an instruction that may wait may move: it stops for a move of its team (R314), a return that is due starts, or a
mark is granted a study slot by the arbiter (R339, R340, R354). -/
def State.movePoint (s : State) (k : Nat) : State :=
  let g := s.grp k
  if !g.live then s
  else if (s.team g.team).going.isSome && g.study.phase == 0 then s.setGrp k { g with study := { g.study with phase := 4 } }
  else if g.study.phase = 2 then
    match g.study.due with
    | some why => s.startReturn k why
    | none => s
  else match g.study.mark with
  | none => s
  | some cause =>
    if g.study.phase != 0 || g.regs.traps != [] then s
    else
      let gr := s.gridOf g
      let die := dieOf (coreOf k)
      -- the frame that is to be on top when the move starts: that of a call or a handler that waits for its rows
      let pend (w : FrameWait) : Option Frame := match w.act with
        | .call f _ | .handler f _ _ _ _ => if w.grp = k then some f else none
        | _ => none
      let next := ((s.core (coreOf k)).line.findSome? pend).getD g.top
      let rows := next.nv + next.nm
      let taken (c : Nat) : List Group := (s.study c).slots.map fun e => s.grp e.2
      let ok (c : Nat) : Bool :=
        !(s.study c).isFull && s.shelfColoured c (s.partOf gr) && !(s.study c).failed && decide ((s.study c).slots.length < 16) && decide (rows ≤ s.studyFree c) &&
        (taken c).all fun x => s.partOf (s.gridOf x) == s.partOf gr
      let cs := ((List.range 4).map (die * 64 + 48 + ·)).filter ok
      match if s.studyQuotaFull gr.vf die then none else leastBy (fun c => 3072 - s.studyFree c) cs with
      | none => s
      | some c =>
        let st := s.study c
        let slot := ((List.range 16).find? fun i => (get? st.slots i).isNone).getD 0
        let s := s.setStudy c { st with slots := put st.slots slot k }
        -- the top frame's rows are reserved there (R341)
        let co := s.core (coreOf k)
        let mark (w : FrameWait) : FrameWait := if w.grp != k then w else match w.act with
          | .call f a => { w with act := .call { f with away := true } a }
          | .handler f a b c d => { w with act := .handler { f with away := true } a b c d }
          | _ => w
        let waits := (co.line.findSome? pend).isSome
        let s := if waits then s.setCore (coreOf k) { co with line := co.line.map mark } else s
        s.setGrp k { (if waits then g else g.setTop { g.top with away := true }) with
                     study := { g.study with mark := none, core := c, slot := slot, phase := 1, cause := cause,
                                                    ctl := (s.core (coreOf k)).armR 0, quota := 0,
                                                    -- a slice end that is under way returns it when it has arrived (R355)
                                                    due := if gr.run.pre == 1 then some 5 else none } }

/-- The lanes of the issue mask go on to the next instruction (R110); an instruction that may wait invalidates the slots (R116), and a replay is
over. -/
def Group.goOn (g : Group) (c : Ctx) (o : Op) : Group :=
  let g := g.setPc c.mask fun _ => c.pc + BitVec.ofNat 64 o.len
  let g := if o.wait then g.invalidate else g
  { g with replay := none }

/-- v rows that an instruction writes at once. -/
def Op.vRows (o : Op) (act : Mask) : List Nat := if act = 0 || o.nw then [] else o.dsts.flatMap spanRows
/-- Rows that an instruction writes: v rows, and m rows from 64 on. -/
def Op.allRows (o : Op) (act : Mask) : List Nat := if act = 0 then [] else o.vRows act ++ (o.mdsts.flatMap spanRows).map (64 + ·)

/-- The traces that a studied group leaves of an issue (R348 to R353). -/
def State.traceIssue (s : State) (c : Ctx) (act : Mask) (o : Op) (accs : List Acc) (d : Nat) : State :=
  let g := s.grp c.key
  -- the frame whose rows it writes, the rows, the lanes
  let w := o.clears.getD (d, o.allRows act, o.writes.getD act)
  let vr := w.2.1.filter (· < 64)
  let lands := o.asks || o.late || o.mxD
  let at_ := if act = 0 || !lands then none else if o.mxD then some none else some (some (g.mio.seq - 1))
  if g.studied then
    let s := if (o.asks || o.late) && vr != [] && g.study.level = 3 then s
      else s.traceInstr c.key c.pc c.mask (accs.map (fun a => (a.lane, a.va)) ++ o.lines) w.1 vr
    let s := if lands then s else s.history c.key c.pc w.1 w.2.1
    s.watch at_ c.key c.pc c.mask (accs.map fun a => (a.lane, a.va, a.n, (o.reqs.headD ⟨0, 0, 1, 1, 0, .gen⟩).acc != 1, (o.reqs.headD ⟨0, 0, 1, 1, 0, .gen⟩).acc != 0))
      w.1 (if lands then [] else w.2.1.map fun r => (r, w.2.2))
  else s

/-- An ordinary issue of a group that is still there counts towards the sixteen of R116. -/
def State.countSlots (s : State) (k : Nat) (o : Op) : State :=
  if !o.wait && (s.grp k).live then s.setGrp k (s.grp k).countIssue else s

/-- The misses of an instruction's accesses start walks, or join them (R81). -/
def State.misses (s : State) (c : Ctx) (accs : List Acc) : State :=
  accs.foldl (fun s a => match a.tgt with
    | .dev _ _ | .host _ _ => s.miss (coreOf c.key) (s.asnOf (s.gridOf c.g).vf) a.va
    | _ => s) s

/-- Commit an instruction that has passed its checks: the lanes of the issue mask go on, the effect is applied, the slots are accounted, and
a studied group leaves its traces. -/
def State.commit (s : State) (c : Ctx) (act : Mask) (o : Op) (accs : List Acc) (eff : State → List Acc → State) : State :=
  let full := o.asks && act != 0 && !s.canAsk (coreOf c.key) (o.asksFor accs)
  let s := ((s.misses c accs).setGrp c.key ((s.grp c.key).goOn c o)).countIssue c
  let d := (s.grp c.key).fdepth
  let s := (o.allRows act).foldl (fun s r => s.logRow c.key d r) s
  let s := if act = 0 && !o.always then s else eff s accs
  let s := if full then s.askReq c.key act else s
  let s := o.after ((s.countSlots c.key o).traceIssue c act o accs d)
  if o.wait then s.movePoint c.key else s

/-- The scheduler that issues a group: that of its slot (R43), or of the study core that holds it (R335). -/
def Group.sched (g : Group) (k : Nat) : Nat := if g.study.phase = 2 then 2 ^ 16 + g.study.core else k / 32

/-- A scheduler makes an issue: the groups of its own that wait at `yield` wait for one issue less (R190). -/
def State.yieldTick (s : State) (k : Nat) : State :=
  let tick (w : Wait × Mask) : Option (Wait × Mask) := match w.1 with
    | .yield n => if n ≤ 1 then none else some (.yield (n - 1), w.2)
    | _ => some w
  { s with groups := s.groups.map fun (e : Nat × Group) =>
      if e.2.sched e.1 == (s.grp k).sched k && e.1 != k then (e.1, { e.2 with lanes := { e.2.lanes with waits := e.2.lanes.waits.filterMap tick } }) else e }

/-- Entries of a group's store FIFO that hold an access; markers take none (R209, R219). -/
def Group.fifoUsed (g : Group) : Nat := (g.mio.fifo.filter fun e => match e.op with
  | .rel _ _ => false
  | _ => true).length

/-- Apply a function to the issuing group. -/
def State.upd (s : State) (k : Nat) (f : Group → Group) : State := s.setGrp k (f (s.grp k))

/-- A group's issue makes its replay over (R445). -/
def State.replayed (s : State) (k : Nat) : State := s.upd k fun g => { g with replay := none }

/-- What a group does instead of an instruction at its turn: a top frame in the cellar is refilled first (R185), and a fault that is due is
raised (R424, R438), after an instruction that it replays (R445). -/
def State.front (s : State) (c : Ctx) : Option State :=
  if c.g.top.spilled then some ((s.refillTop c.key).settle (coreOf c.key))
  else match if c.g.replay.isSome then [] else c.g.due with
  | [] => none
  | d :: t =>
    -- the lanes of the faulting instruction that the frame on top still holds (LOG 103)
    let mask := if (d.mask &&& c.g.running) = 0 then c.mask else d.mask &&& c.g.running
    some (if s.raiseHeld c.key d.flt then s
      else ((s.yieldTick c.key).setGrp c.key { c.g with due := t }).raise c.key d.flt mask d.pc d.pc 4 d.cls)

/-- Issue an instruction: with no group that can issue, nothing happens; a stalled instruction changes nothing; the first fault of R134 is
taken; otherwise the instruction has its effect (LOG 1). -/
def issue (s : State) (guard : Guard) (mk : Ctx → Mask → Op) (eff : Ctx → Mask → State → List Acc → State) : Out :=
  match s.ctx with
  | none => .next s
  | some c =>
    let act := c.mask &&& c.g.guardMask guard
    let o := mk c act
    match s.front c with
    | some s => .next s
    | none =>
      if s.paceHeld c.key || s.hazard c.key act o || o.stall || (o.fifo && act != 0 && decide (64 ≤ c.g.fifoUsed)) then .next s
      else
        let t := s.yieldTick c.key
        match c.g.faultBefore act o with
        | some f => .next (if s.raiseHeld c.key f then s else (t.replayed c.key).raise c.key f c.mask c.pc c.pc o.len 1)
        | none =>
          match t.checkAll c.g (coreOf c.key) (if act = 0 then [] else o.reqs) with
          | .error f =>
            let f := if f.kind = 0x0701 ∧ c.g.replay.isSome then { f with kind := 0x0702 } else f
            .next (if s.raiseHeld c.key f then s else (t.replayed c.key).raise c.key f c.mask c.pc c.pc o.len 1)
          | .ok accs =>
            match o.post with
            | none => .next (t.commit c act o accs (eff c act))
            | some p =>
              let r := p t accs
              match r.2 with
              | none => .next (r.1.commit c act o accs (eff c act))
              | some (stops, f) =>
                if s.raiseHeld c.key f then .next s
                else if stops then .next ((r.1.replayed c.key).raise c.key f c.mask c.pc c.pc o.len 1)
                else .next ((r.1.commit c act o accs (eff c act)).raise c.key f c.mask c.pc (c.pc + BitVec.ofNat 64 o.len) 0 2)

/-- Write the result rows of a lane instruction: the rows unless nw, and the bypass slots (R115, R116, R144). -/
def Group.result (g : Group) (nw : Bool) (act : Mask) (d : Nat) (v : Vals) : Group :=
  let g := if nw then g else g.setRow d act v
  g.setSlot (d % 4) act v

/-- Write a pair result (R145). -/
def Group.resultPair (g : Group) (nw : Bool) (act : Mask) (d : Nat) (f : Nat → W64) : Group :=
  (g.result nw act d (tab fun l => loW (f l))).result nw act (d + 1) (tab fun l => hiW (f l))

/-- A fault of one instruction for a set of lanes. -/
def flt (kind : Nat) (mask : Mask) (addr aux : Nat) : Flt := ⟨kind, mask, BitVec.ofNat 64 addr, BitVec.ofNat 64 aux⟩

/-- A fault if a condition holds. -/
def fltIf (b : Bool) (f : Flt) : Option Flt := if b then some f else none

end Sys2Proof.Machine
end

