-- ==== Sys2Proof/Machine/Bound.lean ====
section
/-! DEFINITION. Bound registers (R448 to R451): the card and the test of a checked store. -/

namespace Sys2Proof.Machine

/-- Bytes of an element of a format (R448). -/
def bdSize (fmt : Nat) : Nat := if fmt = 1 ∨ fmt = 2 then 2 else 4

/-- The card that 32 bytes hold (R448). -/
def Bd.ofBytes (b : List Byte) : Bd :=
  { base := fieldAt b 0 8, len := fieldAt b 8 8, lo := BitVec.ofNat 32 (fieldAt b 16 4), hi := BitVec.ofNat 32 (fieldAt b 20 4)
    fmt := fieldAt b 24 1, act := fieldAt b 25 1, count := 0 }

/-- A card breaks R448. -/
def bdBad (b : List Byte) : Bool :=
  let c := Bd.ofBytes b
  let z := bdSize c.fmt
  decide (4 < c.fmt) || decide (3 < c.act) || decide (2 ^ 47 ≤ c.base) || c.base % z != 0 || c.len % z != 0 || decide (2 ^ 47 < c.base + c.len) ||
    fieldAt b 26 6 != 0 || (z == 2 && (decide (65536 ≤ c.lo.toNat) || decide (65536 ≤ c.hi.toNat)))

/-- The value of an element of a float format. -/
def bdFloat (fmt : Nat) (x : W32) : FV := (if fmt = 0 then fmt32 else if fmt = 1 then fmt16 else fmtB16).val x.toNat

/-- An element is out of range (R450). -/
def Bd.outOfRange (b : Bd) (x : W32) : Bool :=
  match b.fmt with
  | 3 => x.slt b.lo || b.hi.slt x
  | 4 => x.ult b.lo || b.hi.ult x
  | f =>
    let v := bdFloat f x
    v.isNan || FV.lt v (bdFloat f b.lo) || FV.lt (bdFloat f b.hi) v

/-- An element out of range: lane, address, bits. -/
abbrev BdHit := Nat × Nat × W32

/-- The elements that one lane's store writes whole inside a register's range and that are out of range (R450). -/
def Bd.hits (b : Bd) (a : Acc) (bs : List Byte) : List BdHit :=
  let z := bdSize b.fmt
  match a.tgt with
  | .dev _ _ | .host _ _ =>
    (List.range a.n).filterMap fun o =>
      let x := a.va + o
      let e := BitVec.ofNat 32 (fieldAt bs o z)
      if x % z = 0 ∧ o + z ≤ a.n ∧ b.base ≤ x ∧ x + z ≤ b.base + b.len ∧ b.outOfRange e = true then some (a.lane, x, e) else none
  | _ => []

/-- The registers of a grid that an instruction's stores hit, in ascending order, with their elements. -/
def Grid.bdHits (g : Grid) (items : List (Acc × List Byte)) : List (Nat × Bd × List BdHit) :=
  (g.bds.map fun e => (e.1, e.2, if e.2.act = 0 then [] else items.flatMap fun i => e.2.hits i.1 i.2)).filter fun e => e.2.2 != []

/-- The fault of a checked store that hits a register of an action (R450): the lanes that hold an element out of range, the lowest such element's address
and bits, and the lowest register that hit, of whatever action (LOG 33). -/
def bdFault (kind act : Nat) (hs : List (Nat × Bd × List BdHit)) : Option Flt :=
  let all := hs.flatMap fun h => h.2.2
  match hs.head?, leastBy (fun e => e.2.1) all with
  | some h, some e =>
    if hs.any fun h => h.2.1.act == act then
      some { kind := kind, mask := all.foldl (fun m x => m ||| BitVec.ofNat 64 (2 ^ x.1)) 0, addr := BitVec.ofNat 64 e.2.1
             aux := BitVec.ofNat 64 (h.1 + e.2.2.toNat * 2 ^ 32) }
    else none
  | _, _ => none

/-- The test of a checked store (R450): every register that counts counts, a stop wins over a report. -/
def boundTest (grid : Nat) (bytes : Acc → List Byte) (s : State) (accs : List Acc) : State × Option (Bool × Flt) :=
  let gr := s.grid grid
  let hs := gr.bdHits (accs.map fun a => (a, bytes a))
  let bump (m : FMap Bd) (h : Nat × Bd × List BdHit) : FMap Bd :=
    if h.2.1.act = 1 then put m h.1 { h.2.1 with count := min (h.2.1.count + 1) (2 ^ 32 - 1) } else m
  let s := if hs = [] then s else s.setGrid grid { gr with bds := hs.foldl bump gr.bds }
  (s, match bdFault 0x0E01 3 hs with
    | some f => some (true, f)
    | none => (bdFault 0x0E03 2 hs).map fun f => (false, f))

end Sys2Proof.Machine
end

