-- ==== Sys2Proof/Machine/IntLane.lean ====
section
/-! DEFINITION. The integer lane instructions (R149 to R151), `mov` and the bit operations of the unary major (R157), and the compact forms
of them (R117, R172). -/

namespace Sys2Proof.Machine

/-- A lane instruction with one destination row: its word in each lane is a function of the state at issue (R144). -/
def laneRow (s : State) (gd : Guard) (len : Nat) (srcs : List (VSrc × Nat)) (nw : Bool) (d : VReg) (f : Group → Nat → W32) : Out :=
  issue s gd (fun _ _ => { len := len, srcs := srcs, dsts := [(d.val, 1)], nw := nw })
    fun c act s _ => s.upd c.key fun g => g.result nw act d.val (tab (f c.g))

/-- A lane instruction with a destination pair (R145). -/
def lanePair (s : State) (gd : Guard) (srcs : List (VSrc × Nat)) (nw : Bool) (d : VReg) (f : Group → Nat → W64) : Out :=
  issue s gd (fun _ _ => { srcs := srcs, dsts := [(d.val, 2)], nw := nw })
    fun c act s _ => s.upd c.key fun g => g.resultPair nw act d.val (f c.g)

/-- The twenty operations of R149; `readsD` for the operation whose third source is d. -/
def intLane (o : IOp) (readsD : Bool) (f : V3 IntTy) (s : State) : Out :=
  let n := if f.ty = .p64 then 2 else 1
  let srcs := [(f.a, n), (f.b, n)] ++ if readsD then [(.row f.d, n)] else []
  if f.ty = .p64 then
    lanePair s f.g srcs f.nw f.d fun g l => iop 64 o (g.pairAt f.a l) (g.pairAt f.b l) (g.pairAt (.row f.d) l)
  else
    laneRow s f.g 4 srcs f.nw f.d fun g l => iopWord o f.ty (lane (g.src f.a) l) (lane (g.src f.b) l) (lane (g.row f.d.val).w l)

/-- A 32-bit operation with an immediate (R151). -/
def immLane (o : IOp) (x : W32) (a : VSrc) (nw : Bool) (d : VReg) (gd : Guard) (s : State) : Out :=
  laneRow s gd 4 [(a, 1)] nw d fun g l => iop 32 o (lane (g.src a) l) x 0

/-- A compact operation, whose first source is its destination (R117). -/
def compactLane (f : W32 → W32 → W32) (x : C16) (s : State) : Out :=
  laneRow s none 2 [(.row x.d, 1), (x.e, 1)] false x.d fun g l => f (lane (g.row x.d.val).w l) (lane (g.src x.e) l)

/-- A unary operation with a 32-bit and a 64-bit form (R157). -/
def unaryLane (f : ∀ n : Nat, BitVec n → BitVec n) (x : U2) (s : State) : Out :=
  if x.pair then lanePair s x.g [(x.a, 2)] x.nw x.d fun g l => f 64 (g.pairAt x.a l)
  else laneRow s x.g 4 [(x.a, 1)] x.nw x.d fun g l => f 32 (lane (g.src x.a) l)

/-- A unary operation on 32-bit rows (R157). -/
def unaryRow (f : W32 → W32) (x : U1) (s : State) : Out :=
  laneRow s x.g 4 [(x.a, 1)] x.nw x.d fun g l => f (lane (g.src x.a) l)

/-- `add` (R149). -/
def execAdd (f : V3 IntTy) (s : State) : Out := intLane .add false f s
/-- `sub` (R149). -/
def execSub (f : V3 IntTy) (s : State) : Out := intLane .sub false f s
/-- `mul` (R149). -/
def execMul (f : V3 IntTy) (s : State) : Out := intLane .mul false f s
/-- `mulhS` (R149). -/
def execMulhS (f : V3 IntTy) (s : State) : Out := intLane .mulhS false f s
/-- `mulhZ` (R149). -/
def execMulhZ (f : V3 IntTy) (s : State) : Out := intLane .mulhZ false f s
/-- `mad` (R149). -/
def execMad (f : V3 IntTy) (s : State) : Out := intLane .mad true f s
/-- `minS` (R149). -/
def execMinS (f : V3 IntTy) (s : State) : Out := intLane .minS false f s
/-- `minZ` (R149). -/
def execMinZ (f : V3 IntTy) (s : State) : Out := intLane .minZ false f s
/-- `maxS` (R149). -/
def execMaxS (f : V3 IntTy) (s : State) : Out := intLane .maxS false f s
/-- `maxZ` (R149). -/
def execMaxZ (f : V3 IntTy) (s : State) : Out := intLane .maxZ false f s
/-- `and` (R149). -/
def execAnd (f : V3 IntTy) (s : State) : Out := intLane .and false f s
/-- `or` (R149). -/
def execOr (f : V3 IntTy) (s : State) : Out := intLane .or false f s
/-- `xor` (R149). -/
def execXor (f : V3 IntTy) (s : State) : Out := intLane .xor false f s
/-- `andn` (R149). -/
def execAndn (f : V3 IntTy) (s : State) : Out := intLane .andn false f s
/-- `shl` (R149). -/
def execShl (f : V3 IntTy) (s : State) : Out := intLane .shl false f s
/-- `shr` (R149). -/
def execShr (f : V3 IntTy) (s : State) : Out := intLane .shr false f s
/-- `sar` (R149). -/
def execSar (f : V3 IntTy) (s : State) : Out := intLane .sar false f s
/-- `rotl` (R149). -/
def execRotl (f : V3 IntTy) (s : State) : Out := intLane .rotl false f s
/-- `adds` (R149). -/
def execAdds (f : V3 IntTy) (s : State) : Out := intLane .adds false f s
/-- `subs` (R149). -/
def execSubs (f : V3 IntTy) (s : State) : Out := intLane .subs false f s
/-- `addi` (R151). -/
def execAddi (f : VI) (s : State) : Out := immLane .add (f.imm.signExtend 32) f.a f.nw f.d f.g s
/-- `andi` (R151). -/
def execAndi (f : VI) (s : State) : Out := immLane .and (f.imm.setWidth 32) f.a f.nw f.d f.g s
/-- `ori` (R151). -/
def execOri (f : VI) (s : State) : Out := immLane .or (f.imm.setWidth 32) f.a f.nw f.d f.g s
/-- `xori` (R151). -/
def execXori (f : VI) (s : State) : Out := immLane .xor (f.imm.setWidth 32) f.a f.nw f.d f.g s
/-- `shli` (R151). -/
def execShli (f : VIs) (s : State) : Out := immLane .shl (BitVec.ofNat 32 f.amt.val) f.a f.nw f.d f.g s
/-- `shri` (R151). -/
def execShri (f : VIs) (s : State) : Out := immLane .shr (BitVec.ofNat 32 f.amt.val) f.a f.nw f.d f.g s
/-- `sari` (R151). -/
def execSari (f : VIs) (s : State) : Out := immLane .sar (BitVec.ofNat 32 f.amt.val) f.a f.nw f.d f.g s
/-- `movi` (R151). -/
def execMovi (f : VIm) (s : State) : Out := laneRow s f.g 4 [] f.nw f.d fun _ _ => f.imm.signExtend 32
/-- `mov` (R157). -/
def execMov (f : U2) (s : State) : Out := unaryLane (fun _ x => x) f s
/-- `abs` (R157). -/
def execAbs (f : U2) (s : State) : Out := unaryLane (fun _ x => iabs x) f s
/-- `neg` (R157). -/
def execNeg (f : U2) (s : State) : Out := unaryLane (fun _ x => 0 - x) f s
/-- `not` (R157). -/
def execNot (f : U2) (s : State) : Out := unaryLane (fun _ x => ~~~x) f s
/-- `clz` (R157). -/
def execClz (f : U1) (s : State) : Out := unaryRow clz32 f s
/-- `popc` (R157). -/
def execPopc (f : U1) (s : State) : Out := unaryRow popc f s
/-- `brev` (R157). -/
def execBrev (f : U1) (s : State) : Out := unaryRow brev f s
/-- `mov`, compact (R117). -/
def execMovCompact (f : C16) (s : State) : Out := laneRow s none 2 [(f.e, 1)] false f.d fun g l => lane (g.src f.e) l
/-- `add`, compact (R117). -/
def execAddCompact (f : C16) (s : State) : Out := compactLane (fun x y => iop 32 .add x y 0) f s
/-- `sub`, compact (R117). -/
def execSubCompact (f : C16) (s : State) : Out := compactLane (fun x y => iop 32 .sub x y 0) f s
/-- `and`, compact (R117). -/
def execAndCompact (f : C16) (s : State) : Out := compactLane (fun x y => iop 32 .and x y 0) f s
/-- `or`, compact (R117). -/
def execOrCompact (f : C16) (s : State) : Out := compactLane (fun x y => iop 32 .or x y 0) f s
/-- `xor`, compact (R117). -/
def execXorCompact (f : C16) (s : State) : Out := compactLane (fun x y => iop 32 .xor x y 0) f s
/-- `shl`, compact (R117). -/
def execShlCompact (f : C16) (s : State) : Out := compactLane (fun x y => iop 32 .shl x y 0) f s
/-- `shr`, compact (R117). -/
def execShrCompact (f : C16) (s : State) : Out := compactLane (fun x y => iop 32 .shr x y 0) f s
/-- `min`, compact (R117). -/
def execMinCompact (f : C16) (s : State) : Out := compactLane (fun x y => iop 32 .minS x y 0) f s
/-- `max`, compact (R117). -/
def execMaxCompact (f : C16) (s : State) : Out := compactLane (fun x y => iop 32 .maxS x y 0) f s
/-- `mul`, compact (R117). -/
def execMulCompact (f : C16) (s : State) : Out := compactLane (fun x y => iop 32 .mul x y 0) f s
/-- `addq` (R117). -/
def execAddq (f : C16i) (s : State) : Out :=
  laneRow s none 2 [(.row f.d, 1)] false f.d fun g l => lane (g.row f.d.val).w l + f.imm.signExtend 32
/-- `movq` (R117). -/
def execMovq (f : C16i) (s : State) : Out := laneRow s none 2 [] false f.d fun _ _ => f.imm.signExtend 32

end Sys2Proof.Machine
end

