-- ==== Sys2Proof/Machine/FloatLane.lean ====
section
/-! DEFINITION. The floating-point lane instructions (R152, R153, R157, R158), the conversions (R159, R160) and the narrow conversions
(R161 to R163) with the stochastic generators (R104 to R107). -/

namespace Sys2Proof.Machine

/-- The six operations of R152; `readsD` for the operation whose third source is d. -/
def floatLane (o : FOp2) (readsD : Bool) (f : V3 FloTy) (s : State) : Out :=
  let n := if f.ty = .f64 then 2 else 1
  let srcs := [(f.a, n), (f.b, n)] ++ if readsD then [(.row f.d, n)] else []
  if f.ty = .f64 then
    lanePair s f.g srcs f.nw f.d fun g l => fopPair o (g.pairAt f.a l) (g.pairAt f.b l) (g.pairAt (.row f.d) l)
  else
    laneRow s f.g 4 srcs f.nw f.d fun g l => fopWord o f.ty (lane (g.src f.a) l) (lane (g.src f.b) l) (lane (g.row f.d.val).w l)

/-- `fadd` (R152). -/
def execFadd (f : V3 FloTy) (s : State) : Out := floatLane .add false f s
/-- `fsub` (R152). -/
def execFsub (f : V3 FloTy) (s : State) : Out := floatLane .sub false f s
/-- `fmul` (R152). -/
def execFmul (f : V3 FloTy) (s : State) : Out := floatLane .mul false f s
/-- `fma` (R152). -/
def execFma (f : V3 FloTy) (s : State) : Out := floatLane .fma true f s
/-- `fmin` (R87, R152). -/
def execFmin (f : V3 FloTy) (s : State) : Out := floatLane .min false f s
/-- `fmax` (R87, R152). -/
def execFmax (f : V3 FloTy) (s : State) : Out := floatLane .max false f s
/-- `fdot2` (R101, R153): `ty` is true for bf16. -/
def execFdot2 (f : V3 Bool) (s : State) : Out :=
  laneRow s f.g 4 [(f.a, 1), (f.b, 1), (.row f.d, 1)] f.nw f.d fun g l =>
    fdot2 f.ty (lane (g.src f.a) l) (lane (g.src f.b) l) (lane (g.row f.d.val).w l)

/-- `fabs` (R157). -/
def execFabs (f : U1) (s : State) : Out := unaryRow (fun x => x &&& 0x7FFFFFFF) f s
/-- `fneg` (R157). -/
def execFneg (f : U1) (s : State) : Out := unaryRow (fun x => x ^^^ 0x80000000) f s
/-- `frcp` (R88). -/
def execFrcp (f : U1) (s : State) : Out := unaryRow frcp f s
/-- `frsq` (R88). -/
def execFrsq (f : U1) (s : State) : Out := unaryRow frsq f s
/-- `fsqrt` (R88). -/
def execFsqrt (f : U1) (s : State) : Out := unaryRow fsqrt f s
/-- `fexp2` (R88). -/
def execFexp2 (f : U1) (s : State) : Out := unaryRow fexp2 f s
/-- `flog2` (R88). -/
def execFlog2 (f : U1) (s : State) : Out := unaryRow flog2 f s
/-- `frnd.n` (R157). -/
def execFrndN (f : U1) (s : State) : Out := unaryRow (frnd .rn) f s
/-- `frnd.z` (R157). -/
def execFrndZ (f : U1) (s : State) : Out := unaryRow (frnd .rz) f s
/-- `frnd.m` (R157). -/
def execFrndM (f : U1) (s : State) : Out := unaryRow (frnd .rm) f s
/-- `frnd.p` (R157). -/
def execFrndP (f : U1) (s : State) : Out := unaryRow (frnd .rp) f s
/-- `fclass` (R158). -/
def execFclass (f : U1) (s : State) : Out := unaryRow fclass f s

/-- `fadd`, compact (R117). -/
def execFaddCompact (f : C16) (s : State) : Out := compactLane (fun x y => fopWord .add .f32 x y 0) f s
/-- `fsub`, compact (R117). -/
def execFsubCompact (f : C16) (s : State) : Out := compactLane (fun x y => fopWord .sub .f32 x y 0) f s
/-- `fmul`, compact (R117). -/
def execFmulCompact (f : C16) (s : State) : Out := compactLane (fun x y => fopWord .mul .f32 x y 0) f s

/-- `cvt` (R159, R160). -/
def execCvt (f : VCvt) (s : State) : Out :=
  let two := cvtSrcPair f.code
  let r (g : Group) (l : Nat) : W32 × W32 := cvt f.code.val f.mode (lane (g.src f.a) l) (if two then lane (g.srcAt f.a 1) l else 0)
  let srcs := [(f.a, if two then 2 else 1)]
  if cvtDstPair f.code then lanePair s f.g srcs f.nw f.d fun g l => join (r g l).1 (r g l).2
  else laneRow s f.g 4 srcs f.nw f.d fun g l => (r g l).1

/-! ### Narrow conversions -/

/-- The fault of invalid format words among the active lanes (R421). -/
def wordFault (g : Group) (act : Mask) (b : VSrc) (ok : FmtWord → Bool) : Option Flt :=
  let w (l : Nat) : W32 := lane (g.src b) l
  let bad := act &&& maskOf fun l => !ok ⟨(w l).toNat⟩
  fltIf (bad != 0) (flt 0x0801 bad (w (lowestOf bad)).toNat 0)

/-- The generator that an issue draws from (R105, R107): the study core's own, or that of the pipe (R43, LOG 20). -/
def State.pipeGen (s : State) (k : Nat) : W32 :=
  let g := s.grp k
  if g.study.phase = 2 then (s.study g.study.core).gen
  else (s.core (coreOf k)).gen (2 * (slotOf k / 32) + if Config.upperPipe s.fresh then 1 else 0)

/-- Step the generator that an issue draws from n times. -/
def State.stepGen (s : State) (k n : Nat) : State :=
  let g := s.grp k
  if g.study.phase = 2 then
    let c := s.study g.study.core
    s.setStudy g.study.core { c with gen := genSteps n c.gen }
  else
    let j := 2 * (slotOf k / 32) + if Config.upperPipe s.fresh then 1 else 0
    let c := s.core (coreOf k)
    { s.setCore (coreOf k) { c with gens := put c.gens j (genSteps n (c.gen j)) } with fresh := s.fresh + 1 }

/-- `cvtn.pk` (R105, R161). -/
def execCvtnPk (f : V2) (s : State) : Out :=
  issue s f.g (fun c act => { srcs := [(f.a, 4), (f.b, 1)], dsts := [(f.d.val, 1)], nw := f.nw, val := wordFault c.g act f.b FmtWord.valid })
    fun c act s _ =>
      let w := c.g.src f.b
      let u := s.pipeGen c.key
      let s := if lanesOf act |>.any fun l => (FmtWord.mk (lane w l).toNat).rnd == 2 then s.stepGen c.key 16 else s
      s.upd c.key fun g => g.result f.nw act f.d.val (tab fun l => packLane (lane w l) (fun e => lane (c.g.srcAt f.a e) l) (fun e => genWord u e l))

/-- `cvtn.unpk` (R162). -/
def execCvtnUnpk (f : V2) (s : State) : Out :=
  issue s f.g (fun c act => { srcs := [(f.a, 1), (f.b, 1)], dsts := [(f.d.val, 4)], nw := f.nw, val := wordFault c.g act f.b FmtWord.valid })
    fun c act s _ => s.upd c.key fun g => (List.range 4).foldl (fun g e =>
      g.result f.nw act (f.d.val + e) (tab fun l => unpackLane (lane (c.g.src f.b) l) (lane (c.g.src f.a) l) e)) g

/-- `cvtn.bscale` (R163): RND is not read, and no generator steps (R105, LOG 138). -/
def execCvtnBscale (f : V2) (s : State) : Out :=
  issue s f.g (fun c act => { srcs := [(f.a, 4), (f.b, 1)], dsts := [(f.d.val, 1)], nw := f.nw,
                              val := wordFault c.g act f.b fun w => w.valid && w.scl != 0 })
    fun c act s _ => s.upd c.key fun g => g.result f.nw act f.d.val (tab fun l =>
      bscaleLane (lane (c.g.src f.b) l) (fun e => lane (c.g.srcAt f.a e) l))

end Sys2Proof.Machine
end

