-- ==== Sys2Proof/Machine/Pred.lean ====
section
/-! DEFINITION. Comparisons (R154), predicate logic (R155) and `sel` (R156). -/

namespace Sys2Proof.Machine

/-- A predicate result per active lane. -/
def predLane (s : State) (gd : Guard) (srcs : List (VSrc × Nat)) (pd : PReg) (f : Group → Nat → Bool) : Out :=
  issue s gd (fun _ _ => { srcs := srcs }) fun c act s _ => s.upd c.key fun g => g.setPred pd act (maskOf (f c.g))

/-- The sources of `setp`: `ltz` and `gez` test a alone (R154). -/
def setpSrcs (f : VP) : List (VSrc × Nat) :=
  match f.ty with
  | .i32 => (f.a, 1) :: if 6 ≤ f.cc.val then [] else [(f.b, 1)]
  | .i64 => (f.a, 2) :: if 6 ≤ f.cc.val then [] else [(f.b, 2)]
  | .f32 => [(f.a, 1), (f.b, 1)]
  | .f64 => [(f.a, 2), (f.b, 2)]
/-- `setp` (R121, R154). -/
def execSetp (f : VP) (s : State) : Out :=
  match f.ty with
  | .i64 | .f64 => predLane s f.g (setpSrcs f) f.pd fun g l => cmpPair f.ty f.cc.val (g.pairAt f.a l) (g.pairAt f.b l)
  | .i32 | .f32 => predLane s f.g (setpSrcs f) f.pd fun g l => cmpRow f.ty f.cc.val (lane (g.src f.a) l) (lane (g.src f.b) l)
/-- `setpi` (R154). -/
def execSetpi (f : VPi) (s : State) : Out :=
  predLane s f.g [(f.a, 1)] f.pd fun g l => icmp 32 f.cc.val (lane (g.src f.a) l) (f.imm.signExtend 32)

/-- Predicate logic (R155) on the masks of its sources. -/
def predLogic (s : State) (gd : Guard) (pd : PReg) (f : Group → Mask) : Out :=
  issue s gd (fun _ _ => {}) fun c act s _ => s.upd c.key fun g => g.setPred pd act (f c.g)

/-- `pand` (R155). -/
def execPand (f : PL3) (s : State) : Out := predLogic s f.g f.pd fun g => g.pred f.pa &&& g.pred f.pb
/-- `por` (R155). -/
def execPor (f : PL3) (s : State) : Out := predLogic s f.g f.pd fun g => g.pred f.pa ||| g.pred f.pb
/-- `pxor` (R155). -/
def execPxor (f : PL3) (s : State) : Out := predLogic s f.g f.pd fun g => g.pred f.pa ^^^ g.pred f.pb
/-- `pandn` (R155). -/
def execPandn (f : PL3) (s : State) : Out := predLogic s f.g f.pd fun g => g.pred f.pa &&& ~~~ g.pred f.pb
/-- `pnot` (R155). -/
def execPnot (f : PL2) (s : State) : Out := predLogic s f.g f.pd fun g => ~~~ g.pred f.pa
/-- `pmov` (R155). -/
def execPmov (f : PL2) (s : State) : Out := predLogic s f.g f.pd fun g => g.pred f.pa
/-- `pset` (R155). -/
def execPset (f : PL1) (s : State) : Out := predLogic s f.g f.pd fun _ => BitVec.allOnes 64
/-- `pclr` (R155). -/
def execPclr (f : PL1) (s : State) : Out := predLogic s f.g f.pd fun _ => 0

/-- `sel` (R156): no guard, every lane of the issue mask. -/
def execSel (f : VSel) (s : State) : Out :=
  if f.pair then
    lanePair s none [(f.a, 2), (f.b, 2)] f.nw f.d fun g l => if has (g.pred f.p) l then g.pairAt f.a l else g.pairAt f.b l
  else
    laneRow s none 4 [(f.a, 1), (f.b, 1)] f.nw f.d fun g l => if has (g.pred f.p) l then lane (g.src f.a) l else lane (g.src f.b) l

end Sys2Proof.Machine
end

