-- ==== Sys2Proof/Machine/Cross.lean ====
section
/-! DEFINITION. Bit fields (R164), shuffles (R165), votes (R166), reductions and scans (R167), moves between lanes and scalars (R168). -/

namespace Sys2Proof.Machine

/-- `bfx.s` (R164). -/
def execBfxS (f : V2) (s : State) : Out :=
  laneRow s f.g 4 [(f.a, 1), (f.b, 1)] f.nw f.d fun g l => bfxS (lane (g.src f.a) l) (lane (g.src f.b) l)
/-- `bfx.z` (R164). -/
def execBfxZ (f : V2) (s : State) : Out :=
  laneRow s f.g 4 [(f.a, 1), (f.b, 1)] f.nw f.d fun g l => bfxZ (lane (g.src f.a) l) (lane (g.src f.b) l)
/-- `bfi` (R164). -/
def execBfi (f : V2) (s : State) : Out :=
  laneRow s f.g 4 [(f.a, 1), (f.b, 1), (.row f.d, 1)] f.nw f.d fun g l =>
    bfi (lane (g.row f.d.val).w l) (lane (g.src f.a) l) (lane (g.src f.b) l)

/-- A lane instruction whose result depends on the active mask. -/
def crossRow (s : State) (gd : Guard) (srcs : List (VSrc × Nat)) (nw : Bool) (d : VReg) (f : Group → Mask → Nat → W32) : Out :=
  issue s gd (fun _ _ => { srcs := srcs, dsts := [(d.val, 1)], nw := nw })
    fun c act s _ => s.upd c.key fun g => g.result nw act d.val (tab (f c.g act))

/-- A shuffle (R165): the source lane from the lane and n, none when out of range. -/
def shuffle (src : Nat → Nat → Option Nat) (f : V2) (s : State) : Out :=
  crossRow s f.g [(f.a, 1), (f.b, 1)] f.nw f.d fun g act l =>
    match src l ((lane (g.src f.b) l).toNat % 64) with
    | some m => if has act m then lane (g.src f.a) m else lane (g.src f.a) l
    | none => lane (g.src f.a) l

/-- `shfl.idx` (R165). -/
def execShflIdx (f : V2) (s : State) : Out := shuffle (fun _ n => some n) f s
/-- `shfl.up` (R165). -/
def execShflUp (f : V2) (s : State) : Out := shuffle (fun l n => if n ≤ l then some (l - n) else none) f s
/-- `shfl.dn` (R165). -/
def execShflDn (f : V2) (s : State) : Out := shuffle (fun l n => if l + n ≤ 63 then some (l + n) else none) f s
/-- `shfl.xor` (R165). -/
def execShflXor (f : V2) (s : State) : Out := shuffle (fun l n => some (Nat.xor l n)) f s

/-- A vote (R166): one truth value for every active lane. -/
def vote (s : State) (f : PL2) (v : Mask → Mask → Bool) : Out :=
  issue s f.g (fun _ _ => {}) fun c act s _ => s.upd c.key fun g => g.setPred f.pd act (maskOf fun _ => v act (c.g.pred f.pa &&& act))
/-- `vote.any` (R166). -/
def execVoteAny (f : PL2) (s : State) : Out := vote s f fun _ p => p != 0
/-- `vote.all` (R166). -/
def execVoteAll (f : PL2) (s : State) : Out := vote s f fun act p => p == act
/-- `vote.eq` (R166). -/
def execVoteEq (f : PL2) (s : State) : Out := vote s f fun act p => p == 0 || p == act

/-- A ballot (R166); with no active lane it writes too. -/
def ballotWith (s : State) (f : LVs) (v : Mask → W64) : Out :=
  issue s f.g (fun _ _ => { sdsts := [f.sd.val], always := true }) fun c act s _ => s.upd c.key fun g => g.setS f.sd (v (c.g.pred f.pa &&& act))
/-- `ballot` (R166). -/
def execBallot (f : LVs) (s : State) : Out := ballotWith s f fun m => m
/-- `ballot.cnt` (R166). -/
def execBallotCnt (f : LVs) (s : State) : Out := ballotWith s f fun m => BitVec.ofNat 64 (countOf m)

/-- `redx` (R102, R167). -/
def execRedx (f : VRed) (s : State) : Out :=
  crossRow s f.g [(f.a, 1)] f.nw f.d fun g act _ => reduceRow f.op act (fun _ => true) (g.src f.a)
/-- `scan` (R103, R167). -/
def execScan (f : VScan) (s : State) : Out :=
  crossRow s f.g [(f.a, 1)] f.nw f.d fun g act l => reduceRow f.op act (fun m => if f.ex then decide (m < l) else decide (m ≤ l)) (g.src f.a)

/-- `vmovs` (R168). -/
def execVmovs (f : MVb) (s : State) : Out :=
  issue s f.g (fun _ _ => { dsts := [(f.v.val, 1)], ssrcs := [f.s.val] })
    fun c act s _ => s.upd c.key fun g => g.result false act f.v.val (tab fun _ => loW (c.g.s f.s))
/-- The mask of one lane. -/
def oneLane (l : Nat) : Mask := BitVec.ofNat 64 (2 ^ l)
/-- `smovv` (R168): an empty position reads 0; a poisoned word that has been left there is still consumed, as that of a lane which is not active (R438,
LOG 139). -/
def execSmovv (f : MVs) (s : State) : Out :=
  issue s f.g (fun _ _ => { srcs := [(f.v, 1)], sdsts := [f.s.val], pxMask := some (oneLane f.lane.val) })
    fun c _ s _ => s.upd c.key fun g =>
      g.setS f.s (if has c.g.lanes.present f.lane.val then (lane (c.g.src f.v) f.lane.val).setWidth 64 else 0)
/-- `vins` (R168). -/
def execVins (f : MVi) (s : State) : Out :=
  issue s f.g (fun _ _ => { dsts := [(f.v.val, 1)], ssrcs := [f.s.val], writes := some (oneLane f.lane.val) })
    fun c _ s _ => s.upd c.key fun g => g.result false (oneLane f.lane.val) f.v.val (tab fun _ => loW (c.g.s f.s))

end Sys2Proof.Machine
end

