-- ==== Sys2Proof/Machine/Scalar.lean ====
section
/-! DEFINITION. The scalar instructions (R146, R169 to R171). -/

namespace Sys2Proof.Machine

/-- A scalar instruction: one value from the scalars it reads (R146). -/
def scalarOp (s : State) (srcs : List SReg) (sd : SReg) (f : Group → W64) : Out :=
  issue s none (fun _ _ => { ssrcs := srcs.map Fin.val, sdsts := [sd.val] }) fun c _ s _ => s.upd c.key fun g => g.setS sd (f c.g)
/-- `sop` (R169). -/
def scalarSop (o : SOp) (f : SS) (s : State) : Out := scalarOp s [f.sa, f.sb] f.sd fun g => sop o (g.s f.sa) (g.s f.sb)
/-- `sadd` (R169). -/
def execSadd (f : SS) (s : State) : Out := scalarSop .add f s
/-- `ssub` (R169). -/
def execSsub (f : SS) (s : State) : Out := scalarSop .sub f s
/-- `smul` (R169). -/
def execSmul (f : SS) (s : State) : Out := scalarSop .mul f s
/-- `smulh` (R169). -/
def execSmulh (f : SS) (s : State) : Out := scalarSop .mulh f s
/-- `sdiv` (R169). -/
def execSdiv (f : SS) (s : State) : Out := scalarSop .div f s
/-- `sdivz` (R169). -/
def execSdivz (f : SS) (s : State) : Out := scalarSop .divz f s
/-- `srem` (R169). -/
def execSrem (f : SS) (s : State) : Out := scalarSop .rem f s
/-- `sand` (R169). -/
def execSand (f : SS) (s : State) : Out := scalarSop .and f s
/-- `sor` (R169). -/
def execSor (f : SS) (s : State) : Out := scalarSop .or f s
/-- `sxor` (R169). -/
def execSxor (f : SS) (s : State) : Out := scalarSop .xor f s
/-- `sshl` (R169). -/
def execSshl (f : SS) (s : State) : Out := scalarSop .shl f s
/-- `sshr` (R169). -/
def execSshr (f : SS) (s : State) : Out := scalarSop .shr f s
/-- `ssar` (R169). -/
def execSsar (f : SS) (s : State) : Out := scalarSop .sar f s
/-- `smin` (R169). -/
def execSmin (f : SS) (s : State) : Out := scalarSop .min f s
/-- `smax` (R169). -/
def execSmax (f : SS) (s : State) : Out := scalarSop .max f s
/-- `sminz` (R169). -/
def execSminz (f : SS) (s : State) : Out := scalarSop .minz f s
/-- `smaxz` (R169). -/
def execSmaxz (f : SS) (s : State) : Out := scalarSop .maxz f s
/-- `sslt` (R169). -/
def execSslt (f : SS) (s : State) : Out := scalarSop .slt f s
/-- `ssltz` (R169). -/
def execSsltz (f : SS) (s : State) : Out := scalarSop .sltz f s
/-- `sseq` (R169). -/
def execSseq (f : SS) (s : State) : Out := scalarSop .seq f s
/-- `smov` (R169). -/
def execSmov (sa sd : SReg) (s : State) : Out := scalarOp s [sa] sd fun g => g.s sa
/-- `saddi` (R170). -/
def execSaddi (imm : BitVec 11) (sa sd : SReg) (s : State) : Out := scalarOp s [sa] sd fun g => saddi (g.s sa) imm
/-- `sli` (R171). -/
def execSli (f : SI) (s : State) : Out := scalarOp s [] f.sd fun _ => sli f.imm
/-- `slh` (R171). -/
def execSlh (f : SI) (s : State) : Out := scalarOp s [f.sd] f.sd fun g => slh (g.s f.sd) f.imm
/-- `slx` (R171). -/
def execSlx (f : SI) (s : State) : Out := scalarOp s [f.sd] f.sd fun g => slx (g.s f.sd) f.imm

end Sys2Proof.Machine
end

