-- ==== Sys2Proof/Machine/Control.lean ====
section
/-! DEFINITION. Branches (R174 to R177), calls, returns and unwinds (R181 to R183), `reform` (R44 to R47, R189), `exit`, `yield`, `nop` (R190),
traps and breakpoints (R191, R196), `rti` (R197), `suspect` and `probe` (R357, R358), illegal encodings (R133) and fetch faults (R111). -/

namespace Sys2Proof.Machine

/-! ### Branches -/

/-- The target of an offset in parcels (R110). -/
def branchTo (pc : W64) {n : Nat} (off : BitVec n) : W64 := pc + (off.signExtend 64) * 2

/-- `bra` (R174). -/
def execBra (off : BitVec 21) (g : Guard) (s : State) : Out :=
  issue s g (fun _ _ => {}) fun c act s _ => s.upd c.key fun g => g.setPc act fun _ => branchTo c.pc off
/-- `brs` (R175). -/
def execBrs (off : BitVec 13) (cc : BrCc) (sa : SReg) (s : State) : Out :=
  issue s none (fun _ _ => { ssrcs := [sa.val] }) fun c act s _ => s.upd c.key fun g =>
    if brCond cc (c.g.s sa) then g.setPc act fun _ => branchTo c.pc off else g
/-- The fault of a target with bit 0 set (R410, R411). -/
def oddTarget (act : Mask) (t : W64) : Option Flt := fltIf (t.getLsbD 0) (flt 0x060A act t.toNat 768)
/-- `jmp` (R176). -/
def execJmp (sa : SReg) (s : State) : Out :=
  issue s none (fun c act => { ssrcs := [sa.val], val := oddTarget act (c.g.s sa) }) fun c act s _ => s.upd c.key fun g =>
    g.setPc act fun _ => c.g.s sa
/-- `loop` (R177). -/
def execLoop (off : BitVec 16) (r : SReg) (s : State) : Out :=
  issue s none (fun _ _ => { ssrcs := [r.val], sdsts := [r.val] }) fun c act s _ => s.upd c.key fun g =>
    let n := c.g.s r - 1
    let g := g.setS r n
    if n != 0 then g.setPc act fun _ => branchTo c.pc off else g

/-! ### Calls -/

/-- The frame faults that both calls check (R181, R410): k, the budget, the depth. -/
def frameFaults (c : Ctx) (gr : Grid) (act : Mask) (k nm16 nv : Nat) : List (Option Flt) :=
  let r := c.g.role
  [fltIf (decide (c.g.top.nv < k)) (flt 0x0504 act c.g.top.nv k),
   fltIf (decide (gr.roleNv r < nv) || decide (gr.roleNm r < nm16)) (flt 0x0505 act (gr.roleNv r + 256 * gr.roleNm r) (nv + 256 * nm16)),
   fltIf (decide (31 ≤ c.g.fdepth)) (flt 0x0506 act 31 0)]

/-- Push a frame once its rows are there (R181): until then the lanes stand at the call. -/
def State.callTo (s : State) (c : Ctx) (target : W64) (k nm16 nv : Nat) : State :=
  let f : Frame := { nv := nv, nm := 16 * nm16, lanes := c.mask, ret := c.pc + 4, k := k }
  (s.upd c.key fun g => g.setPc c.mask fun _ => c.pc).takeRows c.key (nv - k + 16 * nm16) (.call f target)

/-- The pool faults of `call` (R181, R410). -/
def poolFaults (gr : Grid) (act : Mask) (e nm16 nv : Nat) : List (Option Flt) :=
  let b := gr.poolEntry e
  [fltIf (decide (gr.poolCount ≤ e)) (flt 0x0501 act gr.poolCount e),
   fltIf (fieldAt b 0 1 != 1) (flt 0x0502 act (fieldAt b 0 1) e),
   fltIf (fieldAt b 1 1 != nv || fieldAt b 2 1 != nm16) (flt 0x0503 act (fieldAt b 1 1 + 256 * fieldAt b 2 1) e)]

/-- `call` (R181). An entry's base has no check of its own: one with bit 0 set is gone to as it stands (LOG 105). -/
def execCall (f : CL) (s : State) : Out :=
  issue s none (fun c act =>
      { wait := true
        val := firstFault (poolFaults (s.gridOf c.g) act f.e.toNat f.nm16.val f.nv.val ++
          frameFaults c (s.gridOf c.g) act f.k.val f.nm16.val f.nv.val) })
    fun c _ s _ => s.callTo c (BitVec.ofNat 64 (fieldAt ((s.gridOf c.g).poolEntry f.e.toNat) 8 8)) f.k.val f.nm16.val f.nv.val
/-- `calli` (R181). -/
def execCalli (f : CI) (s : State) : Out :=
  issue s none (fun c act =>
      { wait := true, ssrcs := [f.s.val]
        val := firstFault (frameFaults c (s.gridOf c.g) act f.k.val f.nm16.val f.nv.val ++ [oddTarget act (c.g.s f.s)]) })
    fun c _ s _ => s.callTo c (c.g.s f.s) f.k.val f.nm16.val f.nv.val

/-! ### Returns -/

/-- Accesses or matrix operations in flight for rows or scalars of frames of depth d and above (R182, R183). -/
def State.flying (s : State) (k d : Nat) : Bool :=
  (s.grp k).pending.any (fun p => decide (d ≤ p.1)) || ((s.mxOf k).any fun m => decide (d ≤ m.depth)) ||
    (s.grp k).mio.loads.any fun l => match l.dst with
      | .scalar r => decide (r < 16) && decide (d ≤ l.depth)
      | _ => false

/-- The rows of a frame that is popped return to the pool: a guarded team copies them (R49) and notes that they have gone (R187), and a study core
discards their histories (R353). A group that has taken the slot of one that is gone notes nothing: the checkpoint's rows are that one's (R37). R49 names
`ret`, `unwind` and `rti`; a frame that ends by `exit` counts with them (LOG 137). -/
def State.logFrame (s : State) (k d : Nat) : State :=
  let f := (s.grp k).frameAt d
  let rows := (List.range f.nv).drop f.k ++ (List.range f.nm).map (64 + ·)
  let s := (rows.foldl (fun s r => s.logRow k d r) s).dropHist k fun d' _ => d' == d
  let t := (s.grp k).team
  let tm := s.team t
  if (s.grid tm.grid).guarded && !tm.guard.held.any (fun h => h.1 == k) then s.setTeam t { tm with guard := { tm.guard with popped := tm.guard.popped ++ [(k, d)] } } else s

/-- Lanes that wait at `ret`, and at `rti`. -/
def Group.atRet (g : Group) : Mask := g.waitMask fun w => match w with
  | .ret _ => true
  | _ => false
/-- Lanes that wait at `rti`. -/
def Group.atRti (g : Group) : Mask := g.waitMask (· == .rti)
/-- The j of the last `ret` of some lanes. -/
def Group.lastRetOf (g : Group) (m : Mask) : Nat := g.lanes.waits.foldl (fun a w => match w.1 with
  | .ret j => if (w.2 &&& m) != 0 then j else a
  | _ => a) 0
/-- The j of the last `ret` of the lanes of a frame. -/
def Group.lastRet (g : Group) : Nat := g.lastRetOf g.top.lanes
/-- A wait at the end of a frame. -/
def Wait.frameEnd : Wait → Bool
  | .ret _ | .rti => true
  | _ => false

/-- The top frame is over: every lane of it waits at its end or has finished (R42). -/
def Group.over (g : Group) : Bool := (g.running &&& ~~~ (if g.fdepth = 0 then 0 else if g.top.handler then g.atRti else g.atRet)) == 0

/-- Pop the top frame while it is over (R42, R182, R190, R197): every lane of it has issued its `ret` or its `rti`, or has finished. -/
def State.popFrames (s : State) (k : Nat) : Nat → State
  | 0 => s
  | n + 1 =>
    let g := s.grp k
    if g.fdepth = 0 then s
    else if g.running = 0 then
      let s := s.logFrame k g.fdepth
      let s := s.upd k fun g => if g.top.handler then g.popHandler else g.popFrame 0
      -- a frame that is over too is not refilled
      (if (s.grp k).over then s else (s.refillTop k).settle (coreOf k)).popFrames k n
    else if g.top.handler then
      if (g.running &&& ~~~ g.atRti) = 0 then
        let s := s.logFrame k g.fdepth
        (s.upd k fun g => g.endWaitsOf g.top.lanes Wait.frameEnd).returnFrom k
      else s
    else if (g.running &&& ~~~ g.atRet) = 0 then
      let f := g.top
      let j := g.lastRet
      let s := s.logFrame k g.fdepth
      let c := g.frameAt (g.fdepth - 1)
      let s := ((List.range f.k).drop j).foldl (fun s i => s.logRow k (g.fdepth - 1) (c.nv - f.k + i)) s
      let s := s.upd k fun g => (((g.endWaitsOf f.lanes Wait.frameEnd).popFrame j).setPc (f.lanes &&& ~~~ g.lanes.fin) fun _ => f.ret)
      (s.refillTop k).settle (coreOf k)
    else s

/-- The lanes of a mask end their frame by this issue. -/
def Group.endsFrame (g : Group) (m : Mask) : Bool := decide (0 < g.fdepth) && (g.running &&& ~~~ (m ||| g.atRet ||| g.atRti)) == 0

/-- The argument rows of the frame of depth d beyond the first j, which the end of the frame above clears in its lanes that have not finished (R182). -/
def Group.clearedAt (g : Group) (d j : Nat) : Nat × List Nat × Mask :=
  let f := g.frameAt (d + 1)
  (d, ((List.range f.k).drop j).map ((g.frameAt d).nv - f.k + ·), f.lanes &&& g.lanes.present &&& ~~~ g.lanes.fin)

/-- The argument rows that frames clear which end because the lanes of `act` finish (R42, R182): the frames that hold no lane any more go, and the next
one too when its lanes all wait at `ret`. -/
def Group.exitClears (g : Group) (act : Mask) : Option (Nat × List Nat × Mask) :=
  let g := { g with lanes := { g.lanes with fin := g.lanes.fin ||| act } }
  let left (d : Nat) : Mask := (g.frameAt d).lanes &&& g.lanes.present &&& ~~~ g.lanes.fin
  match (List.range g.frames.length).reverse.find? fun d => left d != 0 with
  | some (d + 1) =>
    if !(g.frameAt (d + 1)).handler && (left (d + 1) &&& ~~~ g.atRet) == 0 then some (g.clearedAt d (g.lastRetOf (left (d + 1)))) else none
  | _ => none

/-- `ret` (R42, R182). -/
def execRet (k : Fin 8) (s : State) : Out :=
  issue s none (fun c act =>
      { wait := true
        stall := decide (0 < c.g.fdepth) && c.g.endsFrame act && s.flying c.key c.g.fdepth
        clears := if c.g.endsFrame act then some (c.g.clearedAt (c.g.fdepth - 1) k.val) else none
        val := firstFault [fltIf (c.g.fdepth == 0) (flt 0x0507 act 0 k.val), fltIf c.g.top.handler (flt 0x0508 act c.g.fdepth 0),
          fltIf (decide (c.g.top.k < k.val)) (flt 0x050A act c.g.top.k k.val)] })
    fun c act s _ => (s.upd c.key fun g => g.addWait act (.ret k.val)).popFrames c.key 1

/-- The deepest handler frame above depth t. -/
def Group.handlerAbove (g : Group) (t : Nat) : Option Nat := (List.range g.fdepth).reverse.findSome? fun i => if decide (t < i + 1) && (g.frameAt (i + 1)).handler then some (i + 1) else none

/-- Pop n frames above the frame of depth t + 1 without clearing argument rows. -/
def Group.popMany (g : Group) : Nat → Group
  | 0 => g
  | n + 1 => (g.popFrame g.top.k).popMany n

/-- Lanes leave what they wait for: barriers, hatches, work queues and every wait of their own (R183). -/
def State.freeLanes (s : State) (k : Nat) (m : Mask) : State :=
  let g := s.grp k
  let tm := s.team g.team
  let left (x : Mask) : Mask := x &&& ~~~ m
  let s := s.setTeam g.team { tm with
    pushers := (tm.pushers.map fun x => if x.2.1 == k then (x.1, k, x.2.2.1, left x.2.2.2.1, x.2.2.2.2) else x).filter fun x => x.2.2.2.1 != 0
    poppers := (tm.poppers.map fun x => if x.2.1 == k then (x.1, k, x.2.2.1, left x.2.2.2) else x).filter fun x => x.2.2.2 != 0 }
  let wq (q : Wq) : Wq := { q with line := (q.line.map fun r => if r.grp == k then { r with mask := left r.mask } else r).filter fun r => r.mask != 0 || r.cmd.isSome }
  let s := { s with vfs := s.vfs.map fun (v : Nat × Vf) => (v.1, { v.2 with wqs := v.2.wqs.map fun (w : Nat × Wq) => (w.1, wq w.2) }) }
  s.setGrp k { g.endWaitsOf m (fun _ => true) with
    mio := { g.mio with bars := g.mio.bars.map fun (b : Nat × BarSt) => (b.1, { b.2 with issued := left b.2.issued }) } }

/-- `unwind` (R183). -/
def execUnwind (sa : SReg) (s : State) : Out :=
  issue s none (fun c act =>
      let t := (c.g.s sa).toNat
      { wait := true, ssrcs := [sa.val]
        stall := s.flying c.key (t + 1) || c.g.mio.fifo.any fun e => decide (t < e.depth)
        clears := some (c.g.clearedAt t 0)
        val := firstFault [(if t < c.g.fdepth then c.g.handlerAbove t else none).map fun d => flt 0x0508 act d 0,
          fltIf (decide (c.g.fdepth ≤ t)) (flt 0x050B act c.g.fdepth t)] })
    fun c _ s _ =>
      let t := (c.g.s sa).toNat
      let u := c.g.fdepth
      let f := c.g.frameAt (t + 1)
      let s := ((List.range (u - t)).map (t + 1 + ·)).foldl (fun s d => s.logFrame c.key d) s
      let s := (List.range f.k).foldl (fun s i => s.logRow c.key t ((c.g.frameAt t).nv - f.k + i)) s
      let s := (s.freeLanes c.key f.lanes).upd c.key fun g =>
        let g := (g.popMany (u - t - 1)).popFrame 0
        let g := g.setPc (f.lanes &&& ~~~ g.lanes.fin) fun _ => f.ret
        { g with regs := { g.regs with unw := u } }
      (s.refillTop c.key).settle (coreOf c.key)

/-- `rti` (R135, R197, R399). -/
def execRti (s : State) : Out :=
  issue s none (fun c act =>
      { wait := true, priv := some (flt 0x0201 act 0 0x4F5)
        stall := c.g.endsFrame act && s.flying c.key c.g.fdepth
        val := fltIf (!c.g.top.handler) (flt 0x0509 act c.g.fdepth 0) })
    fun c act s _ => (s.upd c.key fun g => g.addWait act .rti).popFrames c.key 1

/-! ### Ending, yielding, regrouping -/

/-- After lanes have finished: barriers may complete, the group may retire (R37, R226). -/
def State.afterLeave (s : State) (k : Nat) : State := ((s.tryArrives k).tryRetire k).settle (coreOf k)

/-- Bins are due when every lane of the team that has not finished sits in one (R45). -/
def State.binsDue (s : State) (t : Nat) : State :=
  if (s.team t).bins != [] && (s.groupsOf t).all fun e => (e.2.lanes.present &&& ~~~ e.2.lanes.fin) == 0 then
    s.setTeam t { s.team t with bins := (s.team t).bins.map fun b => { b with due := true } }
  else s

/-- `exit` (R37, R190). -/
def execExit (s : State) : Out :=
  issue s none (fun c act => { wait := true, stall := c.g.endsFrame act && s.flying c.key 1, clears := c.g.exitClears act
                               after := fun s => (s.afterLeave c.key).binsDue c.g.team })
    fun c act s _ => (s.upd c.key fun g =>
      { g with lanes := { g.lanes with fin := g.lanes.fin ||| act }, study := { g.study with exitPc := c.pc } }).popFrames c.key 33

/-- `yield` (R190): the issues to wait for are as many as the other groups of the scheduler that are ready (R315, LOG 104). -/
def execYield (s : State) : Out :=
  issue s none (fun _ _ => { wait := true })
    fun c _ s _ =>
      let n := (s.groups.filter fun e => e.2.sched e.1 == c.g.sched c.key && e.1 != c.key && s.readies.contains e.1).length
      if n = 0 then s else s.upd c.key fun g => g.addWait (BitVec.allOnes 64) (.yield n)

/-- `nop` (R190). -/
def execNop (s : State) : Out := issue s none (fun _ _ => {}) fun _ _ s _ => s

/-- Put a lane into a bin of its key with room, or into a new one (R44, R45). -/
def joinBin (pc : W64) (role : Nat) (shape : List (Nat × Nat)) (x : Nat × Nat × Nat) : List Bin → List Bin
  | [] => [{ pc := pc, role := role, shape := shape, lanes := [x], due := false }]
  | b :: t =>
    if b.pc == pc && b.role == role && b.shape == shape && decide (b.lanes.length < 64) then
      { b with lanes := b.lanes ++ [x], due := b.due || decide (63 ≤ b.lanes.length) } :: t
    else b :: joinBin pc role shape x t

/-- Some lane outside the mask that has not finished waits in a lower frame (R427). -/
def Group.lowerWaits (g : Group) (act : Mask) : Bool := (g.lanes.present &&& ~~~ g.lanes.fin &&& ~~~ act &&& ~~~ g.top.lanes) != 0

/-- `reform` (R44 to R47, R189, R354, R427). -/
def execReform (s : State) : Out :=
  issue s none (fun c act =>
      { wait := true
        stall := c.g.regs.traps == [] && !c.g.lowerWaits act && c.g.study.phase != 2 &&
          (c.g.mio.loads != [] || c.g.mio.fifo != [] || s.mxOf c.key != []) })
    fun c act s _ =>
      if c.g.regs.traps != [] || c.g.lowerWaits act then s
      else if c.g.study.phase = 2 then (s.upd c.key fun g => g.setPc act fun _ => c.pc).startReturn c.key 6
      else
        let g := s.grp c.key
        let (id, s) := s.newId
        let tm := s.team g.team
        let shape := g.frames.reverse.map fun f => (f.nv, f.nm)
        let bins := (lanesOf act).foldl (fun bs l => joinBin (c.pc + 4) g.role shape ((g.lanes.tid.toList.getD l 0).toNat, id, l) bs) tm.bins
        let s := s.setTeam g.team { tm with bins := bins, ghosts := put tm.ghosts id g }
        let left := g.lanes.present &&& ~~~ act
        let s := s.setGrp c.key { g with lanes := { g.lanes with present := left } }
        -- a group without lanes keeps its chain, which its bins are to read (R44, R187)
        let s := if (left &&& ~~~ g.lanes.fin) = 0 then s else s.popFrames c.key 33
        (((s.tryArrives c.key).tryRetire c.key).settle (coreOf c.key)).binsDue g.team

/-! ### Traps -/

/-- `trap` (R191, R338): the interval is published and the group parks; TRAP_RECORD_WRITE writes the record once its stores have drained. It reads
the arguments s0 to s3, and its answer writes s0 and s1 (R192, LOG 106). -/
def execTrap (code : BitVec 16) (s : State) : Out :=
  issue s none (fun c _ => { wait := true, stall := s.mxOf c.key != [], ssrcs := [0, 1, 2, 3], sdsts := [0, 1] })
    fun c act s _ =>
      let sel := (s.core (coreOf c.key)).armR 3
      let s := if s.armed (coreOf c.key) c.g.grid 3 && decide (bits sel 0 16 ≤ code.toNat) && decide (code.toNat ≤ bits sel 16 16) then s.markGroup c.key 6 else s
      let s := s.publish c.g.team
      s.parkGroup c.key { (s.grp c.key).parkFor (.trap code) ⟨0, act, 0, 0⟩ c.pc 4 with mask := act }

/-- `brk` (R196, R399, R400, R420). -/
def execBrk (code : BitVec 16) (s : State) : Out :=
  issue s none (fun c _ => { wait := true, stall := s.mxOf c.key != [] || s.vectorHeld (s.gridOf c.g).vf 0 })
    fun c act s _ =>
      let f : Flt := ⟨0, act, 0, 0⟩
      let v := s.vector (s.gridOf c.g).vf 0
      let s := s.vectorAsk c.key 0
      match v with
      | none => s.parkFault c.key f (.brk code) act c.pc 4 1
      | some v =>
        if 4 ≤ c.g.regs.traps.length ∨ 31 ≤ c.g.fdepth then s.escalate c.key f (some code) act c.pc 4
        else s.enter c.key v act (c.pc + 4) code c.pc none

/-- `suspect` (R338, R357). -/
def execSuspect (code : BitVec 16) (s : State) : Out :=
  issue s none (fun _ _ => { wait := true })
    fun c act s _ =>
      if c.g.study.phase = 2 then s.shelf c.g.study.core 4 code.toNat c.g.study.level c.g.study.slot 0 c.pc act []
      else
        let arg := (s.core (coreOf c.key)).armR 1
        if s.armed (coreOf c.key) c.g.grid 0 && decide (bits arg 32 16 ≤ code.toNat) && decide (code.toNat ≤ bits arg 48 16) then
          -- a mark that this issue has made by its address gives way to the lowest cause
          (if c.g.study.mark.isNone then s.upd c.key fun g => { g with study := { g.study with mark := none } } else s).markGroup c.key 1
        else s

/-- The comparison of PRBCTL (R337). -/
def probePasses (ctl x : W64) : Bool :=
  let v : W64 := (hiW ctl).signExtend 64
  match bits ctl 8 3 with
  | 0 => true
  | 1 => x == v
  | 2 => x != v
  | 3 => x.slt v
  | 4 => !x.slt v
  | _ => false

/-- `probe` (R338, R358). -/
def execProbe (tag : BitVec 8) (sa : SReg) (s : State) : Out :=
  issue s none (fun _ _ => { ssrcs := [sa.val] })
    fun c _ s _ =>
      if c.g.study.phase = 2 then s.shelf c.g.study.core 3 tag.toNat c.g.study.level c.g.study.slot 0 c.pc (c.g.s sa) []
      else
        let ctl := (s.core (coreOf c.key)).armR 4
        if s.armed (coreOf c.key) c.g.grid 4 && bits ctl 0 8 == tag.toNat && probePasses ctl (c.g.s sa) then s.markGroup c.key 7 else s

/-! ### What is not an instruction -/

/-- A fault of the issue itself: taken at its address (R111, R133), or the group's own fault that is due (R424). -/
def issueFault (s : State) (f : Ctx → Flt) (len : Ctx → Nat) : Out :=
  match s.ctx with
  | none => .next s
  | some c =>
    match s.front c with
    | some s => .next s
    | none =>
      if s.paceHeld c.key then .next s
      else if s.raiseHeld c.key (f c) then .next s
      else .next (((s.yieldTick c.key).replayed c.key).raise c.key (f c) c.mask c.pc c.pc (len c) 1)

/-- An illegal encoding (R133, R410): the kind, and the instruction word in aux. -/
def execIllegalInstruction (kind : Nat) (word : W32) (s : State) : Out :=
  issueFault s (fun c => flt kind c.mask 0 word.toNat) fun _ => if word.getLsbD 0 then 4 else 2

/-- The fault that the fetch at a group's address meets (R111, R411, R438, R445); its record names the instruction's address also when the second
parcel fails (LOG 107). -/
def State.fetchFlt (s : State) (c : Ctx) : Option Flt :=
  match s.fetch c with
  | .error (kind, aux) =>
    some (if kind = 0x0D01 then flt kind c.mask c.pc.toNat 0
      else flt (if kind = 0x0701 && c.g.replay.isSome then 0x0702 else kind) c.mask c.pc.toNat (768 + aux))
  | .ok _ => none

/-- FETCH_FAULT (R111): where the fetch meets no fault, nothing happens. -/
def execFetchFault (s : State) : Out :=
  match s.ctx.bind s.fetchFlt with
  | none => .next s
  | some f => issueFault s (fun _ => f) fun _ => 4

end Sys2Proof.Machine
end

