-- ==== Sys2Proof/Machine/MemInstr.lean ====
section
/-! DEFINITION. Loads, stores, prefetch (R211 to R217), acquire and release accesses (R218, R219), atomics and `red` (R220 to R223),
`poison` (R452). -/

namespace Sys2Proof.Machine

/-- The active lanes' accesses of one width: the address of each lane. -/
def laneReqs (act : Mask) (n acc : Nat) (form : Form) (addr : Nat → W64) : List Req :=
  (lanesOf act).map fun l => { lane := l, va := (addr l).toNat, n := n, align := n, acc := acc, form := form }

/-- The address of lane L in format M (R131). -/
def memAddr (g : Group) (r : SReg) (va : VSrc) (l : Nat) : W64 := g.s r + (lane (g.src va) l).signExtend 64

/-- The bytes of lane L of rows from a source (R211): n = 1, 2, 4, 8 or 16. -/
def rowBytes (g : Group) (v : VSrc) (n l : Nat) : List Byte :=
  ((List.range ((n + 3) / 4)).flatMap fun e => leBytes 4 (lane (g.srcAt v e) l).toNat).take n

/-- A load enters the memory system (R39, R211). -/
def Group.addLoad (g : Group) (c : Ctx) (dst : LdDst) (accs : List Acc) (acq : Option Scope) : Group :=
  { g with mio := { g.mio with
      seq := g.mio.seq + 1
      loads := g.mio.loads ++ [{ seq := g.mio.seq, depth := c.g.fdepth, dst := dst, accs := accs, acq := acq, pc := c.pc, mask := c.mask }] } }

/-- Writes of an instruction that reach host memory, the parlour or another team's scratchpad publish the interval (R51, R210). -/
def State.publishFor (s : State) (t : Nat) (accs : List Acc) : State :=
  if accs.any fun a => match a.tgt with
    | .host _ _ | .par _ _ _ => true
    | .scr q _ => q != t
    | _ => false
  then s.publish t else s

/-- A scope of `.suite` or wider. -/
def Scope.wide : Scope → Bool
  | .grp | .team => false
  | _ => true

/-- A release at `.suite` or wider publishes (R51, R210). -/
def State.publishRel (s : State) (t : Nat) (sc : Scope) : State := if Scope.wide sc then s.publish t else s

/-- A load of rows: sources, scalars, guard, rows, width, sign, form of the access, address of each lane. -/
def loadRows (s : State) (gd : Guard) (srcs : List (VSrc × Nat)) (ss : List SReg) (nw signed : Bool) (d : VReg) (n : Nat) (form : Form)
    (acq : Option Scope) (addr : Group → Nat → W64) : Out :=
  let rows := (n + 3) / 4
  issue s gd (fun c act => { srcs := srcs, ssrcs := ss.map Fin.val, dsts := [(d.val, rows)], nw := nw, wait := true, asks := true,
                             reqs := laneReqs act n 0 form (addr c.g) })
    fun c _ s accs => s.upd c.key fun g => g.addLoad c (if nw then .none else .rows signed d.val rows) accs acq

/-- A store of rows. The release of `st.rel` follows its store (R289, LOG 132). -/
def storeRows (s : State) (gd : Guard) (srcs : List (VSrc × Nat)) (ss : List SReg) (v : VSrc) (n : Nat) (form : Form)
    (rel : Option Scope) (addr : Group → Nat → W64) : Out :=
  issue s gd (fun c act => { srcs := srcs ++ [(v, (n + 3) / 4)], ssrcs := ss.map Fin.val, fifo := true,
                             reqs := laneReqs act n 1 form (addr c.g)
                             post := if form = .gen then some (boundTest c.g.grid fun a => rowBytes c.g v n a.lane) else none })
    fun c _ s accs =>
      let s := s.publishFor c.g.team accs
      let op : FOp := .store (accs.map fun a => (a, rowBytes c.g v n a.lane))
      match rel with
      | none => s.upd c.key fun g => g.enqueue op c.pc c.mask (c.g.owners (v, (n + 3) / 4))
      | some sc => (s.publishRel c.g.team sc).upd c.key fun g =>
        ((g.enqueue (.rel sc .none)).enqueue op c.pc c.mask (c.g.owners (v, (n + 3) / 4))).enqueue (.rel sc .none)

/-- A load of format M (R211). -/
def loadM (n : Nat) (signed : Bool) (f : ML) (s : State) : Out :=
  loadRows s f.g [(f.va, 1)] [f.s] false signed f.v n .gen none fun g l => memAddr g f.s f.va l
/-- A store of format M (R211). -/
def storeM (n : Nat) (f : MS) (s : State) : Out :=
  storeRows s f.g [(f.va, 1)] [f.s] f.v n .gen none fun g l => memAddr g f.s f.va l

/-- `ld.s8` (R211). -/
def execLdS8 (f : ML) (s : State) : Out := loadM 1 true f s
/-- `ld.z8` (R211). -/
def execLdZ8 (f : ML) (s : State) : Out := loadM 1 false f s
/-- `ld.s16` (R211). -/
def execLdS16 (f : ML) (s : State) : Out := loadM 2 true f s
/-- `ld.z16` (R211). -/
def execLdZ16 (f : ML) (s : State) : Out := loadM 2 false f s
/-- `ld.32` (R211). -/
def execLd32 (f : ML) (s : State) : Out := loadM 4 false f s
/-- `ld.64` (R211). -/
def execLd64 (f : ML) (s : State) : Out := loadM 8 false f s
/-- `ld.128` (R211). -/
def execLd128 (f : ML) (s : State) : Out := loadM 16 false f s
/-- `st.8` (R211). -/
def execSt8 (f : MS) (s : State) : Out := storeM 1 f s
/-- `st.16` (R211). -/
def execSt16 (f : MS) (s : State) : Out := storeM 2 f s
/-- `st.32` (R211). -/
def execSt32 (f : MS) (s : State) : Out := storeM 4 f s
/-- `st.64` (R211). -/
def execSt64 (f : MS) (s : State) : Out := storeM 8 f s
/-- `st.128` (R211). -/
def execSt128 (f : MS) (s : State) : Out := storeM 16 f s

/-- Bring the 128-byte line of one lane's address into the L1, unless the access would fault or its page is no cached device page (R212). -/
def State.prefetch (s : State) (c : Ctx) (a : Nat) : State :=
  match s.check c.g (coreOf c.key) { lane := 0, va := a, n := 1, align := 1, acc := 0 } with
  | .ok ⟨_, va, .dev pa false, _⟩ => s.fetchFor (coreOf c.key) (s.gridOf c.g).fused ⟨0, va / 128 * 128, .dev (pa / 128 * 128) false, 128⟩
  | _ => s
/-- The address row of a prefetch lies in the frame (R414). -/
def pfRow (g : Group) (va : VSrc) : Bool := (srcRows (va, 1)).all fun r => decide (r < g.top.nv)
/-- `pf` (R212): an address row beyond the frame prefetches nothing (R414). -/
def execPf (f : MP) (s : State) : Out :=
  issue s f.g (fun c act => { srcs := [(f.va, 1)], ssrcs := [f.s.val], skip := true, own := c.g.poisonFault act [(f.va, 1)] [] [f.s.val]
                              lines := if pfRow c.g f.va then (lanesOf act).map fun l => (l, (memAddr c.g f.s f.va l).toNat) else [] })
    fun c act s _ =>
      if !pfRow c.g f.va then s
      else (lanesOf act).foldl (fun s l => s.prefetch c (memAddr c.g f.s f.va l).toNat) s

/-- The address of lane L of `ldl.32` and `stl.32` (R213). -/
def seqAddr (g : Group) (r : SReg) (imm : BitVec 9) (l : Nat) : W64 := g.s r + BitVec.ofNat 64 (4 * imm.toNat + 4 * l)
/-- `ldl.32` (R213). -/
def execLdl32 (f : MLl) (s : State) : Out := loadRows s f.g [] [f.s] false false f.v 4 .gen none fun g l => seqAddr g f.s f.imm l
/-- `stl.32` (R213). -/
def execStl32 (f : MLs) (s : State) : Out := storeRows s f.g [] [f.s] f.v 4 .gen none fun g l => seqAddr g f.s f.imm l

/-- A scratchpad load by offset (R214). -/
def loadScr (n : Nat) (f : XLds) (s : State) : Out :=
  loadRows s f.g [(f.o, 1)] [] f.nw false f.d n .off none fun g l => (lane (g.src f.o) l).setWidth 64
/-- A scratchpad store by offset (R214). -/
def storeScr (n : Nat) (f : XSts) (s : State) : Out :=
  storeRows s f.g [(f.o, 1)] [] f.d n .off none fun g l => (lane (g.src f.o) l).setWidth 64
/-- `lds.32` (R214). -/
def execLds32 (f : XLds) (s : State) : Out := loadScr 4 f s
/-- `lds.64` (R214). -/
def execLds64 (f : XLds) (s : State) : Out := loadScr 8 f s
/-- `lds.128` (R214). -/
def execLds128 (f : XLds) (s : State) : Out := loadScr 16 f s
/-- `sts.32` (R214). -/
def execSts32 (f : XSts) (s : State) : Out := storeScr 4 f s
/-- `sts.64` (R214). -/
def execSts64 (f : XSts) (s : State) : Out := storeScr 8 f s
/-- `sts.128` (R214). -/
def execSts128 (f : XSts) (s : State) : Out := storeScr 16 f s

/-! ### Windows (R216, R217) -/

/-- A window read of one lane at an offset: only the bytes below the window's size are accessed. -/
def winReq (gr : Grid) (w n l o : Nat) : Req :=
  { lane := l, va := (gr.winBase w + o) % 2 ^ 64, n := min n (gr.winSize w - o), align := n, acc := 0, form := .win }
/-- A read reaches beyond the window's size: the overrun bit of the grid. -/
def State.overrun (s : State) (k w : Nat) (beyond : Bool) : State :=
  if beyond then
    let gr := s.grid k
    s.setGrid k { gr with run := { gr.run with overrun := gr.run.overrun ||| BitVec.ofNat 16 (2 ^ w) } }
  else s
/-- The fault of an unbound window. -/
def windowFault (gr : Grid) (act : Mask) (w n : Nat) : Option Flt := fltIf (!gr.winBound w) (flt 0x0608 act w n)

/-- `ldw` (R216, R217). -/
def loadWin (n : Nat) (f : XLdw) (s : State) : Out :=
  issue s none (fun c act => { srcs := [(f.o, 1)], dsts := [(f.d.val, n / 4)], nw := f.nw, wait := true, asks := true,
                               val := windowFault (s.gridOf c.g) act f.w.val n,
                               reqs := (lanesOf act).map fun l => winReq (s.gridOf c.g) f.w.val n l (lane (c.g.src f.o) l).toNat })
    fun c act s accs =>
      let s := s.overrun c.g.grid f.w.val ((lanesOf act).any fun l => decide ((s.gridOf c.g).winSize f.w.val < (lane (c.g.src f.o) l).toNat + n))
      s.upd c.key fun g => g.addLoad c (if f.nw then .none else .rows false f.d.val (n / 4)) accs none
/-- `ldw.32` (R216). -/
def execLdw32 (f : XLdw) (s : State) : Out := loadWin 4 f s
/-- `ldw.64` (R216). -/
def execLdw64 (f : XLdw) (s : State) : Out := loadWin 8 f s
/-- `sldw` (R216): read once for the group. -/
def execSldw (f : XSldw) (s : State) : Out :=
  issue s none (fun c act => { ssrcs := [f.o.val], sdsts := [f.d.val], wait := true, asks := true,
                               val := windowFault (s.gridOf c.g) act f.w.val 8,
                               reqs := (lanesOf act).map fun l => winReq (s.gridOf c.g) f.w.val 8 l (c.g.s f.o).toNat })
    fun c _ s accs =>
      let s := s.overrun c.g.grid f.w.val (decide ((s.gridOf c.g).winSize f.w.val < (c.g.s f.o).toNat + 8))
      s.upd c.key fun g => g.addLoad c (.scalar f.d.val) (accs.take 1) none

/-! ### Acquire and release accesses (R218) -/

/-- `ld.acq.32` (R218, R219). -/
def execLdAcq32 (f : XAcq) (s : State) : Out :=
  loadRows s none [(f.a, 2)] [] f.nw false f.d 4 .gen (some f.c) fun g l => g.pairAt f.a l
/-- `ld.acq.64` (R218, R219). -/
def execLdAcq64 (f : XAcq) (s : State) : Out :=
  loadRows s none [(f.a, 2)] [] f.nw false f.d 8 .gen (some f.c) fun g l => g.pairAt f.a l
/-- `st.rel.32` (R218, R219). -/
def execStRel32 (f : XRel) (s : State) : Out := storeRows s none [(f.a, 2)] [] f.d 4 .gen (some f.c) fun g l => g.pairAt f.a l
/-- `st.rel.64` (R218, R219). -/
def execStRel64 (f : XRel) (s : State) : Out := storeRows s none [(f.a, 2)] [] f.d 8 .gen (some f.c) fun g l => g.pairAt f.a l

/-! ### Atomics (R220 to R223) -/

/-- An operand of an atomic in lane L: the row or pair that stands `e` rows after a source. -/
def atomArg (g : Group) (v : VSrc) (wide : Bool) (e l : Nat) : W64 :=
  if wide then join (lane (g.srcAt v e) l) (lane (g.srcAt v (e + 1)) l) else (lane (g.srcAt v e) l).setWidth 64

/-- An atomic or `red` enters the store FIFO (R222, R223). -/
def atomic (op : AtomOp) (wide : Bool) (a v : VSrc) (dst : Option VReg) (sc : Scope) (ar : Bool) (s : State) : Out :=
  let n := if wide then 2 else 1
  issue s none (fun c act => { srcs := [(a, 2), (v, if op = .cas then 2 * n else n)]
                               dsts := dst.toList.map fun d => (d.val, n)
                               wait := true, fifo := true, asks := true
                               reqs := laneReqs act (4 * n) 2 (.atom op) fun l => c.g.pairAt a l })
    fun c _ s accs =>
      let s := s.publishFor c.g.team accs
      let s := if ar then s.publishRel c.g.team sc else s
      let item (x : Acc) : Acc × W64 × W64 := (x, atomArg c.g v wide 0 x.lane, if op = .cas then atomArg c.g v wide n x.lane else 0)
      let e : FOp := .atom op wide (dst.map Fin.val) (accs.map item) (if ar then some sc else none)
      s.upd c.key fun g => (if ar then g.enqueue (.rel sc .none) else g).enqueue e c.pc c.mask (c.g.owners (v, if op = .cas then 2 * n else n))

/-- `atom` (R220). -/
def atomX (op : AtomOp) (wide ar : Bool) (f : XAtom) (s : State) : Out := atomic op wide f.a (.row f.d) (some f.d) f.c ar s
/-- `red` (R220). -/
def redX (op : AtomOp) (wide : Bool) (f : XRel) (s : State) : Out := atomic op wide f.a f.d none f.c false s
/-- `atom.add.32` (R221, R223). -/
def execAtomAdd32 (f : XAtom) (s : State) : Out := atomX .add false false f s
/-- `atom.minS.32` (R221, R223). -/
def execAtomMinS32 (f : XAtom) (s : State) : Out := atomX .minS false false f s
/-- `atom.minZ.32` (R221, R223). -/
def execAtomMinZ32 (f : XAtom) (s : State) : Out := atomX .minZ false false f s
/-- `atom.maxS.32` (R221, R223). -/
def execAtomMaxS32 (f : XAtom) (s : State) : Out := atomX .maxS false false f s
/-- `atom.maxZ.32` (R221, R223). -/
def execAtomMaxZ32 (f : XAtom) (s : State) : Out := atomX .maxZ false false f s
/-- `atom.and.32` (R221, R223). -/
def execAtomAnd32 (f : XAtom) (s : State) : Out := atomX .and false false f s
/-- `atom.or.32` (R221, R223). -/
def execAtomOr32 (f : XAtom) (s : State) : Out := atomX .or false false f s
/-- `atom.xor.32` (R221, R223). -/
def execAtomXor32 (f : XAtom) (s : State) : Out := atomX .xor false false f s
/-- `atom.xchg.32` (R221, R223). -/
def execAtomXchg32 (f : XAtom) (s : State) : Out := atomX .xchg false false f s
/-- `atom.cas.32` (R221, R223). -/
def execAtomCas32 (f : XAtom) (s : State) : Out := atomX .cas false false f s
/-- `atom.fadd.32` (R221, R223). -/
def execAtomFadd32 (f : XAtom) (s : State) : Out := atomX .fadd false false f s
/-- `atom.add.64` (R221, R223). -/
def execAtomAdd64 (f : XAtom) (s : State) : Out := atomX .add true false f s
/-- `atom.minS.64` (R221, R223). -/
def execAtomMinS64 (f : XAtom) (s : State) : Out := atomX .minS true false f s
/-- `atom.minZ.64` (R221, R223). -/
def execAtomMinZ64 (f : XAtom) (s : State) : Out := atomX .minZ true false f s
/-- `atom.maxS.64` (R221, R223). -/
def execAtomMaxS64 (f : XAtom) (s : State) : Out := atomX .maxS true false f s
/-- `atom.maxZ.64` (R221, R223). -/
def execAtomMaxZ64 (f : XAtom) (s : State) : Out := atomX .maxZ true false f s
/-- `atom.and.64` (R221, R223). -/
def execAtomAnd64 (f : XAtom) (s : State) : Out := atomX .and true false f s
/-- `atom.or.64` (R221, R223). -/
def execAtomOr64 (f : XAtom) (s : State) : Out := atomX .or true false f s
/-- `atom.xor.64` (R221, R223). -/
def execAtomXor64 (f : XAtom) (s : State) : Out := atomX .xor true false f s
/-- `atom.xchg.64` (R221, R223). -/
def execAtomXchg64 (f : XAtom) (s : State) : Out := atomX .xchg true false f s
/-- `atom.cas.64` (R221, R223). -/
def execAtomCas64 (f : XAtom) (s : State) : Out := atomX .cas true false f s
/-- `atom.fadd.64` (R221, R223). -/
def execAtomFadd64 (f : XAtom) (s : State) : Out := atomX .fadd true false f s
/-- `atom.add.ar.32` (R221, R223). -/
def execAtomAddAr32 (f : XAtom) (s : State) : Out := atomX .add false true f s
/-- `atom.minS.ar.32` (R221, R223). -/
def execAtomMinSAr32 (f : XAtom) (s : State) : Out := atomX .minS false true f s
/-- `atom.minZ.ar.32` (R221, R223). -/
def execAtomMinZAr32 (f : XAtom) (s : State) : Out := atomX .minZ false true f s
/-- `atom.maxS.ar.32` (R221, R223). -/
def execAtomMaxSAr32 (f : XAtom) (s : State) : Out := atomX .maxS false true f s
/-- `atom.maxZ.ar.32` (R221, R223). -/
def execAtomMaxZAr32 (f : XAtom) (s : State) : Out := atomX .maxZ false true f s
/-- `atom.and.ar.32` (R221, R223). -/
def execAtomAndAr32 (f : XAtom) (s : State) : Out := atomX .and false true f s
/-- `atom.or.ar.32` (R221, R223). -/
def execAtomOrAr32 (f : XAtom) (s : State) : Out := atomX .or false true f s
/-- `atom.xor.ar.32` (R221, R223). -/
def execAtomXorAr32 (f : XAtom) (s : State) : Out := atomX .xor false true f s
/-- `atom.xchg.ar.32` (R221, R223). -/
def execAtomXchgAr32 (f : XAtom) (s : State) : Out := atomX .xchg false true f s
/-- `atom.cas.ar.32` (R221, R223). -/
def execAtomCasAr32 (f : XAtom) (s : State) : Out := atomX .cas false true f s
/-- `atom.fadd.ar.32` (R221, R223). -/
def execAtomFaddAr32 (f : XAtom) (s : State) : Out := atomX .fadd false true f s
/-- `atom.add.ar.64` (R221, R223). -/
def execAtomAddAr64 (f : XAtom) (s : State) : Out := atomX .add true true f s
/-- `atom.minS.ar.64` (R221, R223). -/
def execAtomMinSAr64 (f : XAtom) (s : State) : Out := atomX .minS true true f s
/-- `atom.minZ.ar.64` (R221, R223). -/
def execAtomMinZAr64 (f : XAtom) (s : State) : Out := atomX .minZ true true f s
/-- `atom.maxS.ar.64` (R221, R223). -/
def execAtomMaxSAr64 (f : XAtom) (s : State) : Out := atomX .maxS true true f s
/-- `atom.maxZ.ar.64` (R221, R223). -/
def execAtomMaxZAr64 (f : XAtom) (s : State) : Out := atomX .maxZ true true f s
/-- `atom.and.ar.64` (R221, R223). -/
def execAtomAndAr64 (f : XAtom) (s : State) : Out := atomX .and true true f s
/-- `atom.or.ar.64` (R221, R223). -/
def execAtomOrAr64 (f : XAtom) (s : State) : Out := atomX .or true true f s
/-- `atom.xor.ar.64` (R221, R223). -/
def execAtomXorAr64 (f : XAtom) (s : State) : Out := atomX .xor true true f s
/-- `atom.xchg.ar.64` (R221, R223). -/
def execAtomXchgAr64 (f : XAtom) (s : State) : Out := atomX .xchg true true f s
/-- `atom.cas.ar.64` (R221, R223). -/
def execAtomCasAr64 (f : XAtom) (s : State) : Out := atomX .cas true true f s
/-- `atom.fadd.ar.64` (R221, R223). -/
def execAtomFaddAr64 (f : XAtom) (s : State) : Out := atomX .fadd true true f s
/-- `red.add.32` (R221, R222). -/
def execRedAdd32 (f : XRel) (s : State) : Out := redX .add false f s
/-- `red.minS.32` (R221, R222). -/
def execRedMinS32 (f : XRel) (s : State) : Out := redX .minS false f s
/-- `red.minZ.32` (R221, R222). -/
def execRedMinZ32 (f : XRel) (s : State) : Out := redX .minZ false f s
/-- `red.maxS.32` (R221, R222). -/
def execRedMaxS32 (f : XRel) (s : State) : Out := redX .maxS false f s
/-- `red.maxZ.32` (R221, R222). -/
def execRedMaxZ32 (f : XRel) (s : State) : Out := redX .maxZ false f s
/-- `red.and.32` (R221, R222). -/
def execRedAnd32 (f : XRel) (s : State) : Out := redX .and false f s
/-- `red.or.32` (R221, R222). -/
def execRedOr32 (f : XRel) (s : State) : Out := redX .or false f s
/-- `red.xor.32` (R221, R222). -/
def execRedXor32 (f : XRel) (s : State) : Out := redX .xor false f s
/-- `red.xchg.32` (R221, R222). -/
def execRedXchg32 (f : XRel) (s : State) : Out := redX .xchg false f s
/-- `red.fadd.32` (R221, R222). -/
def execRedFadd32 (f : XRel) (s : State) : Out := redX .fadd false f s
/-- `red.add.64` (R221, R222). -/
def execRedAdd64 (f : XRel) (s : State) : Out := redX .add true f s
/-- `red.minS.64` (R221, R222). -/
def execRedMinS64 (f : XRel) (s : State) : Out := redX .minS true f s
/-- `red.minZ.64` (R221, R222). -/
def execRedMinZ64 (f : XRel) (s : State) : Out := redX .minZ true f s
/-- `red.maxS.64` (R221, R222). -/
def execRedMaxS64 (f : XRel) (s : State) : Out := redX .maxS true f s
/-- `red.maxZ.64` (R221, R222). -/
def execRedMaxZ64 (f : XRel) (s : State) : Out := redX .maxZ true f s
/-- `red.and.64` (R221, R222). -/
def execRedAnd64 (f : XRel) (s : State) : Out := redX .and true f s
/-- `red.or.64` (R221, R222). -/
def execRedOr64 (f : XRel) (s : State) : Out := redX .or true f s
/-- `red.xor.64` (R221, R222). -/
def execRedXor64 (f : XRel) (s : State) : Out := redX .xor true f s
/-- `red.xchg.64` (R221, R222). -/
def execRedXchg64 (f : XRel) (s : State) : Out := redX .xchg true f s
/-- `red.fadd.64` (R221, R222). -/
def execRedFadd64 (f : XRel) (s : State) : Out := redX .fadd true f s

/-- `poison` (R452): one line per lane enters the store FIFO. -/
def execPoison (a : VSrc) (gd : Guard) (s : State) : Out :=
  issue s gd (fun c act => { srcs := [(a, 2)], fifo := true
                             reqs := (lanesOf act).map fun l => { lane := l, va := (c.g.pairAt a l).toNat, n := 128, align := 1, acc := 1, form := .poison } })
    fun c _ s accs => (s.publishFor c.g.team accs).upd c.key fun g => g.enqueue (.poison accs) c.pc c.mask

end Sys2Proof.Machine
end

