-- ==== Sys2Proof/Machine/Sync.lean ====
section
/-! DEFINITION. Fences (R224), barriers (R225 to R227), semaphores (R228, R229) and hatches (R230, R231). -/

namespace Sys2Proof.Machine

/-! ### Fences -/

/-- Earlier loads or atomics of a group have not landed. -/
def Group.awaits (g : Group) : Bool :=
  g.mio.loads != [] || g.mio.fifo.any fun e => match e.op with
    | .atom _ _ dst _ _ => dst.isSome
    | _ => false
/-- A release at a scope has not completed (R219): at `.grp` it is complete once the earlier accesses are in the store FIFO. -/
def Group.releasing (g : Group) (sc : Scope) : Bool := sc != .grp && g.mio.fifo != []

/-- `fence.rel` (R224): a marker in the store FIFO. -/
def execFenceRel (sc : Scope) (s : State) : Out :=
  issue s none (fun _ _ => {}) fun c _ s _ => (s.publishRel c.g.team sc).upd c.key fun g => g.enqueue (.rel sc .none)
/-- `fence.acq` (R224). -/
def execFenceAcq (sc : Scope) (s : State) : Out :=
  issue s none (fun c _ => { stall := c.g.awaits }) fun c _ s _ => s.acquireBy c.key sc
/-- `fence` (R224): it stalls until its release completes and the loads and atomics have landed, then releases and acquires. -/
def execFence (sc : Scope) (s : State) : Out :=
  issue s none (fun c _ => { stall := c.g.awaits || c.g.releasing sc })
    fun c _ s _ => ((s.publishRel c.g.team sc).release (coreOf c.key) (s.gridOf c.g).fused sc).acquireBy c.key sc

/-! ### Barriers -/

/-- The fault of a barrier that the grid was not launched for (R225). -/
def barFault (gr : Grid) (act : Mask) (l : Level) : Option Flt :=
  fltIf (match l with
    | .die => !gr.attr 3
    | .grid => !gr.attr 4
    | _ => false) (flt 0x0B03 act (levelNum l) 0)

/-- Issue a barrier: the lanes wait, and the group arrives when its top frame is complete (R226). -/
def State.joinBar (s : State) (c : Ctx) (act : Mask) (l : Level) (w : Wait) : State :=
  let s := s.publishBar c.g.team l
  (s.upd c.key fun g =>
    let g := (g.setBarSt l { g.bar l with issued := (g.bar l).issued ||| act }).addWait act w
    { g with mio := { g.mio with acqs := renewed w act g.mio.acqs } }).tryArrive c.key l

/-- A team barrier's split forms act as `bar.team` in a guarded grid (R227). -/
def asBar (gr : Grid) (l : Level) : Bool := gr.guarded && l == .team

/-- `bar` (R226). -/
def execBar (l : Level) (s : State) : Out :=
  issue s none (fun c act => { wait := true, attr := barFault (s.gridOf c.g) act l }) fun c act s _ => s.joinBar c act l (.bar l)
/-- `bar.arr` (R226, R227). -/
def execBarArr (l : Level) (s : State) : Out :=
  issue s none (fun c act => { wait := true, attr := barFault (s.gridOf c.g) act l })
    fun c act s _ => s.joinBar c act l (if asBar (s.gridOf c.g) l then .bar l else .barArr l)
/-- `bar.wt` (R226, R227). -/
def execBarWt (l : Level) (s : State) : Out :=
  issue s none (fun c act => { wait := true, attr := barFault (s.gridOf c.g) act l })
    fun c act s _ =>
      if asBar (s.gridOf c.g) l then s.joinBar c act l (.bar l)
      else
        let b := c.g.bar l
        let u := s.barUnit c.g.grid l (s.barInst c.g.team l)
        match b.memo with
        | some p =>
          if p < u.phase then (s.upd c.key fun g => g.setBarSt l { b with memo := none }).acquireBy c.key (levelScope l)
          else s.upd c.key fun g => (g.addWait act (.barWt l)).acquires (.barWt l) act
        | none => s.acquireBy c.key (levelScope l)

/-! ### Semaphores -/

/-- The fault of a semaphore outside the team's set (R228). -/
def semFault (gr : Grid) (act : Mask) (k : Nat) : Option Flt := fltIf (decide (gr.nsem ≤ k)) (flt 0x0B01 act k gr.nsem)

/-- `sem.set` and `sem.add` (R228): a release, and the operation when it completes. -/
def semSend (set : Bool) (f : XSem) (s : State) : Out :=
  issue s none (fun c act => { ssrcs := [f.s.val], val := semFault (s.gridOf c.g) act f.k.val })
    fun c _ s _ => (s.publishRel c.g.team f.c).upd c.key fun g => g.enqueue (.rel f.c (.sem set f.k.val (c.g.s f.s)))
/-- `sem.set` (R228). -/
def execSemSet (f : XSem) (s : State) : Out := semSend true f s
/-- `sem.add` (R228). -/
def execSemAdd (f : XSem) (s : State) : Out := semSend false f s
/-- `sem.wait` (R228, R229). -/
def execSemWait (r : SReg) (k : Fin 64) (s : State) : Out :=
  issue s none (fun c act => { ssrcs := [r.val], wait := true, val := semFault (s.gridOf c.g) act k.val })
    fun c act s _ =>
      if (c.g.s r).ule (s.sem (s.team c.g.team) k.val) then s.acquireBy c.key .team
      else s.upd c.key fun g => (g.addWait act (.sem k.val (c.g.s r))).acquires (.sem k.val (c.g.s r)) act

/-! ### Hatches -/

/-- The fault of a hatch that the team did not declare (R230). -/
def hatchFault (s : State) (g : Group) (act : Mask) (h : Nat) : Option Flt := fltIf (s.hatchSlots g.team h == 0) (flt 0x0B02 act h 0)

/-- `hpush` (R230, R231): a group that finds the hatch full, or others waiting, begins to wait in its line; the handle enters once the release is
complete (LOG 108). -/
def execHpush (f : XHatch) (s : State) : Out :=
  issue s none (fun c act => { ssrcs := [f.s.val], wait := true, val := hatchFault s c.g act f.h.val })
    fun c act s _ =>
      let tm := s.team c.g.team
      let v := loW (c.g.s f.s)
      let full := decide (s.hatchSlots c.g.team f.h.val ≤ (tm.handles f.h.val).length) || tm.pushers.any fun x => x.1 == f.h.val
      let s := if full then s.setTeam c.g.team { tm with pushers := tm.pushers ++ [(f.h.val, c.key, v, act, false)] } else s
      s.upd c.key fun g => (g.addWait act (.hpush f.h.val)).enqueue (.rel .team (.hpush f.h.val v act))
/-- `hpop` (R230, R231). -/
def execHpop (f : XHatch) (s : State) : Out :=
  issue s none (fun c act => { sdsts := [f.s.val], wait := true, val := hatchFault s c.g act f.h.val })
    fun c act s _ =>
      let sd := f.s.val + 32 * c.g.fdepth
      let s := s.upd c.key fun g => (g.addWait act (.hpop f.h.val sd)).acquires (.hpop f.h.val sd) act
      let tm := s.team c.g.team
      ((s.setTeam c.g.team { tm with poppers := tm.poppers ++ [(f.h.val, c.key, sd, act)] }).hatchServe c.g.team f.h.val).acquireBy c.key .team
/-- `hpeek` (R230). -/
def execHpeek (f : XHatch) (s : State) : Out :=
  issue s none (fun c act => { sdsts := [f.s.val], wait := true, val := hatchFault s c.g act f.h.val })
    fun c _ s _ =>
      match (s.team c.g.team).handles f.h.val with
      | v :: _ => (s.upd c.key fun g => g.setScAt g.fdepth f.s.val ⟨v.setWidth 64, (s.team c.g.team).headPx f.h.val⟩).acquireBy c.key .team
      | [] => s.upd c.key fun g => g.setS f.s (BitVec.allOnes 64)

end Sys2Proof.Machine
end

