-- ==== Sys2Proof/Machine/Engine.lean ====
section
/-! DEFINITION. Job cards and their checks (R236 to R238, R415), the dependence graph (R240), `enq` (R239), `wpop` and `wpush` (R252). -/

namespace Sys2Proof.Machine

/-! ### Cards -/

/-- A 64-bit field of a card. -/
def cd (c : List Byte) (off : Nat) : Nat := fieldAt c off 8
/-- SEM. -/
def cardSem (c : List Byte) : Bool := cardByte c 1 % 2 == 1
/-- SCOPE. -/
def cardScope (c : List Byte) : Nat := cardByte c 1 / 2 % 8
/-- XQD. -/
def cardXqd (c : List Byte) : Bool := cardByte c 1 / 16 % 2 == 1
/-- The element size of a gather or scatter by its code (R245). -/
def cardZ (c : List Byte) : Nat := 2 ^ (cardByte c 80)
/-- The element size of a collective (R247): two bytes for add.bf16, otherwise four (LOG 31). -/
def collZ (c : List Byte) : Nat := if cardByte c 88 = 2 then 2 else 4
/-- Bytes that a job moves (R248). -/
def cardMoved (c : List Byte) : Nat :=
  match cardByte c 0 with
  | 1 => fieldAt c 80 4 * fieldAt c 84 4
  | 4 => cd c 56
  | 5 => 0
  | _ => fieldAt c 84 4 * cardZ c

/-- The place of an address as bytes (R240): class, a number that tells it apart, offset, and the size of its region from there on. None outside
every region of R60, or beyond the allocation. -/
def State.jobPlace (s : State) (t va : Nat) : Option (Nat × Nat × Nat × Nat) :=
  let tm := s.team t
  let gr := s.grid tm.grid
  if va < 2 ^ 47 then some (0, (s.asnOf gr.vf).getD 0, va, 2 ^ 47 - va)
  else if va < scrBase then none
  else
    let d := va - scrBase
    if d < 0x1000000000 then (if d < gr.alloc then some (2, t, d, gr.alloc - d) else none)
    else if d < 0x2000000000 then
      let p := d - 0x1000000000
      let tms := if gr.gang = 0 then [t] else tm.gangTeams
      if tms.getD (p / 0x1000000) 0 = 0 then none
      else if p % 0x1000000 < gr.alloc then some (2, tms.getD (p / 0x1000000) 0, p % 0x1000000, gr.alloc - p % 0x1000000) else none
    else if d < 0x3000000000 then
      (if d - 0x2000000000 < gr.parlour then some (3, tm.grid * 4 + dieOf tm.core, d - 0x2000000000, gr.parlour - (d - 0x2000000000)) else none)
    else none

/-- A range breaks R236: the offset in the card of the field that does. -/
def State.rangeBad (s : State) (t : Nat) (c : List Byte) (off : Nat) : Option Nat :=
  let len := cd c (off + 8)
  if len = 0 then none
  else if 2 ^ 28 < len then some (off + 8)
  else match s.jobPlace t (cd c off) with
  | none => some off
  | some p => if p.2.2.2 < len then some (off + 8) else none

/-- Two ranges share a byte (R240). -/
def State.rangesMeet (s : State) (t : Nat) (c : List Byte) (off : Nat) (t' : Nat) (c' : List Byte) (off' : Nat) : Bool :=
  match s.jobPlace t (cd c off), s.jobPlace t' (cd c' off') with
  | some p, some q => p.1 == q.1 && p.2.1 == q.2.1 && decide (p.2.2.1 < q.2.2.1 + cd c' (off' + 8)) && decide (q.2.2.1 < p.2.2.1 + cd c (off + 8))
  | _, _ => false

/-- A range meets a pantry region of the address space (R415). -/
def State.rangePantry (s : State) (t : Nat) (c : List Byte) (off : Nat) : Bool :=
  cd c (off + 8) != 0 && decide (cd c off < 2 ^ 47) &&
  (s.spaceOf (s.team t).grid).regions.any fun r => decide (cd c off < r.1 + r.2.size) && decide (r.1 < cd c off + cd c (off + 8))

/-- First offset at which a list of checks fails. -/
def firstOff : List (Bool × Nat) → Option Nat
  | [] => none
  | (b, o) :: t => if b then some o else firstOff t

/-- Some byte from lo to hi is not 0. -/
def someByte (c : List Byte) (lo hi : Nat) : Bool := (List.range (hi - lo)).any fun i => cardByte c (lo + i) != 0

/-- The params that break the entry of the operation (R244 to R248, kind 0x0908). -/
def paramsBad (c : List Byte) : Option Nat :=
  match cardByte c 0 with
  | 1 =>
    let rb := fieldAt c 80 4
    let n := fieldAt c 84 4
    firstOff [(cardXqd c && cd c 56 != 0, 56), (cardXqd c && cd c 72 != 0, 72), (rb == 0 || decide (2 ^ 28 < rb), 80), (n == 0, 84),
      (decide (2 ^ 28 < cardMoved c), 84), (cardXqd c && cardMoved c % 256 != 0, 80),
      (decide (cd c 24 < (n - 1) * cd c 88 + rb), 88), (!cardXqd c && decide (cd c 56 < (n - 1) * cd c 96 + rb), 96)]
  | 2 | 3 =>
    let z := cardZ c
    let n := fieldAt c 84 4
    firstOff [(decide (5 ≤ cardByte c 80), 80), (cd c 16 % z != 0, 16), (cd c 32 % 4 != 0, 32), (cd c 48 % z != 0, 48),
      (decide (cd c 40 < n * 4), 84), (decide (2 ^ 28 < n * z), 84),
      (if cardByte c 0 = 2 then decide (cd c 56 < n * z) else decide (cd c 24 < n * z), 84)]
  | 4 => none
  | _ => firstOff [(decide (6 ≤ cardByte c 88), 88), (cardByte c 89 != 0, 89),
      (decide (cd c 24 < cd c 96 * collZ c) || decide (cd c 56 < cd c 96 * collZ c), 96)]

/-- Reserved bits of a card that are not 0 (kind 0x0902). -/
def reservedBad (c : List Byte) : Option Nat :=
  let unused := match cardByte c 0 with
    | 1 => [(104, 128)]
    | 2 | 3 => [(81, 84), (88, 128)]
    | 4 => [(96, 128)]
    | _ => [(90, 96), (104, 128)]
  firstOff ([(decide (6 ≤ cardScope c) || decide (32 ≤ cardByte c 1), 1), (decide (4 ≤ cardByte c 3), 3), (someByte c 4 8, 4)] ++
    unused.map fun u => (someByte c u.1 u.2, u.1))

/-- The first check that a card fails (R237, R415): its kind and the offset of the field. -/
def State.cardBad (s : State) (t op : Nat) (c : List Byte) : Option (Nat × Nat) :=
  let rs := [16, 32, 48, 64]
  if cardByte c 0 ≠ op then some (0x0901, 0)
  else match reservedBad c with
  | some o => some (0x0902, o)
  | none =>
    if cardSem c && decide ((s.grid (s.team t).grid).nsem ≤ cardByte c 2) then some (0x0903, 2)
    else if cardXqd c && op != 1 then some (0x0904, 1)
    else match rs.findSome? (s.rangeBad t c) with
    | some o => some (0x0905, o)
    | none => match rs.find? (s.rangePantry t c) with
      | some o => some (0x0906, o)
      | none =>
        if op = 1 ∧ cd c 24 ≠ 0 ∧ cd c 56 ≠ 0 ∧ s.rangesMeet t c 16 t c 48 then some (0x0907, 48)
        else (paramsBad c).map fun o => (0x0908, o)

/-! ### Entering the table -/

/-- The ranges of a card that are present. -/
def present (c : List Byte) (offs : List Nat) : List Nat := offs.filter fun o => cd c (o + 8) != 0

/-- An edge from job E to a new card (R240). -/
def State.edge (s : State) (t : Nat) (c : List Byte) (e : Job) : Bool :=
  let meet (a b : List Nat) : Bool := (present c a).any fun o => (present e.card b).any fun o' => s.rangesMeet t c o e.team e.card o'
  let r := [16, 32]
  let w := [48, 64]
  meet r w || meet w r || meet w w ||
    (cardXqd c && cardXqd e.card && t == e.team && cardByte c 3 % 4 == cardByte e.card 3 % 4)

/-- The job table has an entry within the quota of the VF (R239, R391, R392). -/
def State.jobEntry (s : State) (c vf : Nat) : Option Nat :=
  let jobs := (s.core c).jobs
  if bits (s.vf vf).quota0 0 7 ≤ (jobs.filter fun j => (s.grid j.2.grid).vf == vf).length then none
  else (List.range 64).find? fun i => (get? jobs i).isNone

/-- Older stores and atomics of the issuing group that touch a range of the job have not drained (R242). -/
def State.jobHeld (s : State) (j : Job) : Bool :=
  let g := s.grp j.grp
  let inRange (va n off : Nat) : Bool := match s.jobPlace j.team va, s.jobPlace j.team (cd j.card off) with
    | some p, some r => cd j.card (off + 8) != 0 && p.1 == r.1 && p.2.1 == r.2.1 && decide (p.2.2.1 < r.2.2.1 + cd j.card (off + 8)) && decide (r.2.2.1 < p.2.2.1 + n)
    | _, _ => false
  let va (a : Acc) : Nat := match a.tgt with
    | .scr q off => if q = j.team then scrBase + off else a.va
    | _ => a.va
  let touches (a : Acc) (n : Nat) : Bool := [16, 32, 48, 64].any fun o => inRange (va a) n o
  g.live && g.team == j.team && g.mio.fifo.any fun e => decide (e.seq < j.seq) && match e.op with
    | .store items => items.any fun i => touches i.1 i.1.n
    | .poison items => items.any fun a => touches a 128
    | .atom _ _ _ items _ => items.any fun i => touches i.1 i.1.n
    | .rel _ _ => false

/-- Enter the jobs of cards in order; a card that finds no entry stalls the group (R239). -/
def State.enqCards (s : State) (k : Nat) (pc : W64) : List (List Byte) → State
  | [] => s.upd k fun g => { g with stall := none }
  | c :: rest =>
    let g := s.grp k
    let co := coreOf k
    match s.jobEntry co (s.gridOf g).vf with
    | none => s.upd k fun g => { g with stall := some (.enq pc (c :: rest)) }
    | some i =>
      let cr := s.core co
      let ps := (cr.jobs.filter fun e => s.edge g.team c e.2).map Prod.fst
      let j : Job := { team := g.team, grid := g.grid, grp := k, pc := pc, card := c, st := .waiting, preds := ps,
                       done := [], step := 0, desc := [], buf := [], px := [], serial := 0, seq := g.mio.seq, stop := none, born := cr.born }
      let j := if ps = [] && !s.jobHeld j then { j with st := .ready } else j
      let s := s.setCore co { cr with jobs := put cr.jobs i j, born := cr.born + 1 }
      let tm := s.team g.team
      let s := if (s.gridOf g).guarded then s.setTeam g.team { tm with guard := { tm.guard with jobs := tm.guard.jobs ++ [i] } } else s
      s.enqCards k pc rest

/-- Groups that stall at `enq` on a core go on, in slot order (LOG 32). -/
def State.enqResume (s : State) (co : Nat) : State :=
  (s.groups.filter fun e => coreOf e.1 == co).foldl (fun s e => match (s.grp e.1).stall with
    | some (.enq pc cards) => s.enqCards e.1 pc cards
    | _ => s) s

/-- A load with an acquire has not landed, or a copy or take of a pantry item: what follows it in program order accesses nothing (R219, R274). -/
def Group.acqPending (g : Group) : Bool := (g.mio.loads.any fun l => l.acq.isSome) || g.mio.pans.any fun p => p.dst.isSome

/-- A wait at a work queue. -/
def Wait.atQueue : Wait → Bool
  | .wq _ => true
  | _ => false
/-- Earlier reads of the group, its atomics, or its accesses at work queues have not been performed: a read of a card or record at issue waits for them
(R223, R252, R286, R287). -/
def Group.readsOpen (g : Group) : Bool :=
  g.mio.loads != [] || (g.lanes.waits.any fun w => w.1.atQueue) || (g.mio.pans.any fun p => p.dst.isSome) || g.mio.fifo.any fun e => match e.op with
    | .atom _ _ _ _ _ => true
    | _ => false

/-- The bytes of a card or record in the own scratchpad, as the group's stores left them (R66). -/
def State.scrCard (s : State) (c : Ctx) (off n : Nat) : List Byte :=
  (s.readAcc (coreOf c.key) (s.gridOf c.g).fused c.g.mio.fifo c.g.mio.seq ⟨0, scrBase + off, .scr c.g.team off, n⟩).map Prod.fst

/-- A write range leaves the team's own scratchpad, or SCOPE is wider than `.team` (R51, R250). -/
def State.cardPublishes (s : State) (t : Nat) (c : List Byte) : Bool :=
  decide (2 ≤ cardScope c) || (present c [48, 64]).any fun o => match s.jobPlace t (cd c o) with
    | some p => !(p.1 == 2 && p.2.1 == t)
    | none => true

/-- `enq` (R239): the kind's number, the row of card offsets, the guard. -/
def enqueueJobs (op : Nat) (f : XEnq) (s : State) : Out :=
  let off (g : Group) (l : Nat) : Nat := (lane (g.src f.o) l).toNat
  issue s f.g
    (fun c act =>
      let o := off c.g
      let fits (l : Nat) : Bool := o l % 128 == 0 && decide (o l + 128 ≤ (s.gridOf c.g).alloc)
      let ls := lanesOf act
      let bad : List (Nat × Nat × Nat) := (ls.filter fits).filterMap fun l => (s.cardBad c.g.team op (s.scrCard c (o l) 128)).map fun b => (l, b)
      let kind := (leastBy (fun b => b.2.1) bad).elim 0 fun b => b.2.1
      let named := bad.filter fun b => b.2.1 == kind
      { srcs := [(f.o, 1)]
        stall := c.g.readsOpen
        reqs := ls.map fun l => { lane := l, va := o l, n := 128, align := 128, acc := 0, form := .card }
        val := match named with
          | [] => none
          | b :: _ => some (flt kind (maskOf fun l => named.any fun b => b.1 == l) (o b.1) b.2.2) })
    fun c act s _ =>
      let cards := (lanesOf act).map fun l => s.scrCard c (off c.g l) 128
      let s := if cards.any (s.cardPublishes c.g.team) then s.publish c.g.team else s
      s.enqCards c.key c.pc cards

/-- `enq.copy` (R239). -/
def execEnqCopy (f : XEnq) (s : State) : Out := enqueueJobs 1 f s
/-- `enq.gather` (R239). -/
def execEnqGather (f : XEnq) (s : State) : Out := enqueueJobs 2 f s
/-- `enq.scatter` (R239). -/
def execEnqScatter (f : XEnq) (s : State) : Out := enqueueJobs 3 f s
/-- `enq.fill` (R239). -/
def execEnqFill (f : XEnq) (s : State) : Out := enqueueJobs 4 f s
/-- `enq.coll` (R239). -/
def execEnqColl (f : XEnq) (s : State) : Out := enqueueJobs 5 f s

/-! ### Work queues -/

/-- A work queue of a VF. -/
def State.wq (s : State) (vf w : Nat) : Option Wq := get? (s.vf vf).wqs w
/-- Replace it. -/
def State.setWq (s : State) (vf w : Nat) (q : Wq) : State := s.setVf vf { s.vf vf with wqs := put (s.vf vf).wqs w q }

/-- What `wpop` and `wpush` check (R252, R410). -/
def wqOp (s : State) (f : XWq) (c : Ctx) (act : Mask) (acc : Nat) : Op :=
  let q := (c.g.s f.q).toNat
  { ssrcs := [f.q.val, f.o.val], wait := true
    attr := fltIf (!(s.gridOf c.g).attr 6) (flt 0x0B05 act 0 0)
    val := fltIf (decide (63 < q) || (s.wq (s.gridOf c.g).vf q).isNone) (flt 0x0B04 act q 0)
    reqs := (lanesOf act).map fun l => { lane := l, va := (c.g.s f.o).toNat, n := 64, align := 64, acc := acc, form := .card } }

/-- `wpop` (R252): the group sleeps until the front end delivers a record. -/
def execWpop (f : XWq) (s : State) : Out :=
  issue s none (fun c act => wqOp s f c act 1)
    fun c act s _ =>
      let vf := (s.gridOf c.g).vf
      let w := (c.g.s f.q).toNat
      let s := s.upd c.key fun g => { g.addWait act (.wq w) with mio := { g.mio with seq := g.mio.seq + 1 } }
      match s.wq vf w with
      | some q => s.setWq vf w { q with line := q.line ++ [{ grp := c.key, push := false, off := (c.g.s f.o).toNat, mask := act, seq := c.g.mio.seq }] }
      | none => s
/-- `wpush` (R252): a release at `.sys`, then the record goes to the front end. -/
def execWpush (f : XWq) (s : State) : Out :=
  issue s none (fun c act => wqOp s f c act 0)
    fun c act s _ =>
      let w := (c.g.s f.q).toNat
      (s.publish c.g.team).upd c.key fun g => (g.addWait act (.wq w)).enqueue (.rel .sys (.wpush w (c.g.s f.o).toNat act))

end Sys2Proof.Machine
end

