-- ==== Sys2Proof/Machine/Matrix.lean ====
section
/-! DEFINITION. The matrix instructions (R255 to R263) and the sparse index queues (R253, R254). -/

namespace Sys2Proof.Machine

/-- Rows of the A side of an operation with its scale rows (R257, R259). -/
def aRows (sparse : Bool) (w : FmtWord) : Nat := (if sparse then 8 else 16) + mxScaleRows w
/-- Rows of the B side. -/
def bRows (w : FmtWord) : Nat := 16 + mxScaleRows w

/-- The checks of R258 in its order, after the grid's attribute. -/
def mxChecks (g : Group) (act : Mask) (sparse : Bool) (f : MX) : Option Flt :=
  let v := g.src f.fw
  let l0 := lowestOf act
  let w := lane v l0
  let differ := act &&& maskOf fun l => lane v l != w
  let fw : FmtWord := ⟨w.toNat⟩
  let ra := aRows sparse fw
  let rb := bRows fw
  firstFault [g.poisonFault act [(f.fw, 1)] [] [],
    fltIf (differ != 0) (flt 0x0802 differ w.toNat (lane v (lowestOf differ)).toNat),
    fltIf (!(fw.valid || fw.validWide)) (flt 0x0801 act w.toNat 0),
    g.frameFault act (spanRows (f.a.val, ra) ++ spanRows (f.b.val, rb) ++ srcRows (f.fw, 1)) (spanRows (16 * f.dq.val, 64)),
    g.poisonFault (BitVec.allOnes 64) [(.row f.a, ra), (.row f.b, rb)] [(16 * f.dq.val, 64)] []]

/-- `mx` and `mx.sp` (R255, R258, R259): the operation enters the core's matrix engine. -/
def matrixOp (sparse : Bool) (f : MX) (s : State) : Out :=
  issue s none
    (fun c act =>
      let fw : FmtWord := ⟨(lane (c.g.src f.fw) (lowestOf act)).toNat⟩
      { srcs := [(.row f.a, aRows sparse fw), (.row f.b, bRows fw), (f.fw, 1)]
        mdsts := [(16 * f.dq.val, 64)], mxD := true, skip := true
        attr := fltIf (sparse && !(s.gridOf c.g).attr 5) (flt 0x0B06 act 0 0)
        own := mxChecks c.g act sparse f
        stall := decide (16 ≤ (s.mxAt (s.engineCore c.key)).length) })
    fun c act s _ =>
      s.setMxAt (s.engineCore c.key) (s.mxAt (s.engineCore c.key) ++
        [{ grp := c.key, depth := c.g.fdepth, sparse := sparse, a := f.a.val, b := f.b.val, dq := f.dq.val
           word := lane (c.g.src f.fw) (lowestOf act), xq := c.g.regs.xqsel.toNat, started := false, idx := [], pc := c.pc, mask := c.mask }])

/-- `mx` (R258). -/
def execMx (f : MX) (s : State) : Out := matrixOp false f s
/-- `mx.sp` (R259). -/
def execMxSp (f : MX) (s : State) : Out := matrixOp true f s

/-- `mzero` (R261): every lane position. -/
def execMzero (dq : Fin 8) (s : State) : Out :=
  issue s none (fun _ _ => { mdsts := [(16 * dq.val, 16)] })
    fun c _ s _ => s.upd c.key fun g =>
      (List.range 16).foldl (fun g e => g.setMRow (16 * dq.val + e) (BitVec.allOnes 64) (Vector.replicate 64 0)) g

/-- `mld` (R262). -/
def execMld (f : MXm) (s : State) : Out :=
  issue s none (fun c act => { srcs := [(f.a, 2)], mdsts := [(16 * f.dq.val, 16)], wait := true, asks := true
                               reqs := laneReqs act 64 0 .gen fun l => c.g.pairAt f.a l })
    fun c _ s accs => s.upd c.key fun g => g.addLoad c (.mrows (16 * f.dq.val)) accs none
/-- The 64 bytes of lane L of an m group (R262). -/
def mBytes (g : Group) (dq l : Nat) : List Byte := (List.range 16).flatMap fun e => leBytes 4 (lane (g.mrow (16 * dq + e)).w l).toNat
/-- `mst` (R262). -/
def execMst (f : MXm) (s : State) : Out :=
  issue s none (fun c act => { srcs := [(f.a, 2)], msrcs := [(16 * f.dq.val, 16)], fifo := true
                               reqs := laneReqs act 64 1 .gen fun l => c.g.pairAt f.a l
                               post := some (boundTest c.g.grid fun a => mBytes c.g f.dq.val a.lane) })
    fun c _ s accs =>
      (s.publishFor c.g.team accs).upd c.key fun g => g.enqueue (.store (accs.map fun a => (a, mBytes c.g f.dq.val a.lane))) c.pc c.mask
        ((List.range 16).map fun e => (c.g.fdepth, 64 + 16 * f.dq.val + e))

/-- `mmov.vm` (R263). -/
def execMmovVm (dq : Fin 8) (e : Fin 16) (d : VReg) (s : State) : Out :=
  issue s none (fun _ _ => { msrcs := [(16 * dq.val + e.val, 1)], dsts := [(d.val, 1)] })
    fun c act s _ => s.upd c.key fun g => g.result false act d.val (c.g.mrow (16 * dq.val + e.val)).w
/-- `mmov.mv` (R263). -/
def execMmovMv (dq : Fin 8) (e : Fin 16) (a : VSrc) (s : State) : Out :=
  issue s none (fun _ _ => { srcs := [(a, 1)], mdsts := [(16 * dq.val + e.val, 1)] })
    fun c act s _ => s.upd c.key fun g => g.setMRow (16 * dq.val + e.val) act (c.g.src a)

/-! ### Sparse index queues -/

/-- Head and count of a sparse index queue of a team (R253). -/
def Team.xqState (t : Team) (q : Nat) : Nat × Nat := get (0, 0) t.xq q
/-- The scratchpad offset of ring slot i of queue q (R253). A job of a grid whose card lacks XQ appends there too, from offset 0 on where the
allocation is smaller than the rings (LOG 123). -/
def Grid.xqOff (g : Grid) (q i : Nat) : Nat := g.alloc - 8192 + 2048 * q + 256 * (i % 8)
/-- Append one entry, with a poison mark per word, to a queue with room (R253, R254, R260); heads and counts stand in the team's reserve (LOG 98). -/
def State.xqAppend (s : State) (t q : Nat) (words : List (W32 × Bool)) : State :=
  let gr := s.grid (s.team t).grid
  let hc := (s.team t).xqState q
  let off := gr.xqOff q (hc.1 + hc.2)
  let s := ((List.range 4).foldl (fun s i => s.logScr t (off + 64 * i)) s).logScr t (gr.alloc + 512)
  let tm := s.team t
  let tm := tm.scrWrite off (words.flatMap fun w => leBytes 4 w.1.toNat) fun w => decide (off / 4 ≤ w) && decide (w < off / 4 + 64)
  let bad := (words.zipIdx.filter fun w => w.1.2).map fun w => off / 4 + w.2
  s.setTeam t { tm with xq := put tm.xq q (hc.1, hc.2 + 1), scrPx := bad.foldl (fun p w => insertNat w p) tm.scrPx }

/-- `mxq` (R260): a full queue stalls the group. Its write of the scratchpad follows the group's earlier accesses (R286, R288, LOG 109). -/
def execMxq (q : Fin 4) (a : VSrc) (s : State) : Out :=
  issue s none (fun c act => { srcs := [(a, 1)], attr := fltIf (!(s.gridOf c.g).attr 5) (flt 0x0B06 act 0 0)
                               stall := (s.gridOf c.g).attr 5 && (decide (8 ≤ ((s.team c.g.team).xqState q.val).2) || c.g.readsOpen || c.g.mio.fifo != []) })
    fun c _ s _ =>
      let v := c.g.src a
      let px := c.g.srcPx (a, 1)
      s.xqAppend c.g.team q.val ((List.range 64).map fun l => if has c.g.lanes.present l then (lane v l, has px l) else (0, false))

end Sys2Proof.Machine
end

