-- ==== Sys2Proof/Machine/Pantry.lean ====
section
/-! DEFINITION. Pantry regions: items and patterns (R267 to R269), the slices (R270 to R273, R276), `pdep`, `pcopy` and `ptake` (R277 to
R279), and the events at the slices. -/

namespace Sys2Proof.Machine

/-! ### Items and patterns -/

/-- Word e of lane L of a run of 16 rows (R267). -/
def runWord (g : Group) (v : VSrc) (e l : Nat) : W64 := join (lane (g.srcAt v (2 * e)) l) (lane (g.srcAt v (2 * e + 1)) l)
/-- The identity of a lane within its team (R46). -/
def Group.tidAt (g : Group) (l : Nat) : Nat := (g.lanes.tid.toList.getD l 0).toNat
/-- The eight words of a lane. -/
def runWords (g : Group) (v : VSrc) (l : Nat) : List W64 := (List.range 8).map fun e => runWord g v e l
/-- The tag of an item or pattern. -/
def wordTag (w : W64) : Nat := bits w 0 32
/-- CNT of an item. -/
def wordCnt (w : W64) : Nat := bits w 32 3
/-- Word 0 of an item breaks R267. -/
def itemBad (w : W64) : Bool := wordTag w == 0 || wordCnt w == 0 || bits w 35 29 != 0
/-- Word 0 of a pattern breaks R268. -/
def patBad (w : W64) : Bool := wordTag w == 0 || bits w 46 18 != 0
/-- An item as a deposit stores it: fields that are not present are 0 (R267). -/
def storedItem (ws : List W64) : List W64 :=
  let w := ws.headD 0
  w :: (List.range 7).map fun n => if n < wordCnt w then ws.getD (n + 1) 0 else 0
/-- An item matches a pattern (R269). -/
def itemMatches (i p : List W64) : Bool :=
  let i0 := i.headD 0
  let p0 := p.headD 0
  wordTag i0 == wordTag p0 && (List.range 7).all fun n =>
    let f := i.getD (n + 1) 0
    let v := p.getD (n + 1) 0
    match bits p0 (32 + 2 * n) 2 with
    | 0 => true
    | 1 => decide (n < wordCnt i0) && f == v
    | 2 => decide (n < wordCnt i0) && v.sle f
    | _ => decide (n < wordCnt i0) && f.slt v

/-- The slice of a tag (R270). -/
def tagSlice (t : Nat) : Nat := t * 0x9E3779B1 % 2 ^ 32 / 65536 * 12 / 65536
/-- The die of a slice (R10). -/
def sliceDie (n : Nat) : Nat := if n < 2 then 0 else if n < 4 then 1 else if n < 8 then 2 else 3

/-! ### What a slice does -/

/-- The tag of a message. -/
def PMsg.tag (m : PMsg) : Nat := wordTag (m.words.headD 0)
/-- A request parks on a slice for a tenant. -/
def PReq.parkedOn (r : PReq) (vf slice : Nat) : Bool := r.st == 2 && r.vf == vf && tagSlice r.msg.tag == slice
/-- Parked requests of a tenant on a slice reach PARK, or those of all tenants its table of 4,096 entries (R276, R391). -/
def State.parkFull (s : State) (vf slice : Nat) : Bool :=
  decide (bits (s.vf vf).quota0 13 13 ≤ (s.preqs.filter fun r => r.2.parkedOn vf slice).length) ||
    decide (4096 ≤ (s.preqs.filter fun r => r.2.parkedOn r.2.vf slice).length)
/-- A region's items on a slice. -/
def Region.onSlice (r : Region) (slice : Nat) : List (Nat × List W64) := r.items.filter fun i => tagSlice (wordTag (i.2.headD 0)) == slice
/-- A tenant's stored items on a slice reach ITEMS, or a region's share there is full (R265, R276, R391). -/
def State.itemsFull (s : State) (asn vf region slice : Nat) : Bool :=
  let mine := s.spaces.foldl (fun a x => a + x.2.regions.foldl (fun a r => a + ((r.2.onSlice slice).filter fun i => i.1 == vf).length) 0) 0
  let r := get { size := 0, items := [], frames := [] } (s.space asn).regions region
  decide (bits (s.vf vf).quota0 26 24 ≤ mine) || decide (r.size / 12 / 64 ≤ (r.onSlice slice).length)

/-- Replace a request. -/
def State.setReq (s : State) (id : Nat) (r : PReq) : State := { s with preqs := put s.preqs id r }
/-- Answer a request with words. -/
def State.answerReq (s : State) (id : Nat) (r : PReq) (ws : List W64) : State := s.setReq id { r with st := 3, ans := some ws }
/-- Replace the items of a region. -/
def State.setItems (s : State) (asn region : Nat) (items : List (Nat × List W64)) : State :=
  let sp := s.space asn
  match get? sp.regions region with
  | none => s
  | some r => s.setSpace asn { sp with regions := put sp.regions region { r with items := items } }

/-- A copy or take reaches its slice (R272, R276). One whose region has been freed misses (LOG 125). -/
def State.requestArrives (s : State) (id : Nat) (r : PReq) : State :=
  match get? (s.space r.asn).regions r.msg.region with
  | none => s.answerReq id r (List.replicate 8 0)
  | some g =>
    match findIdx (fun i => itemMatches i.2 r.msg.words) g.items with
    | some (n, i) => (if r.msg.take then s.setItems r.asn r.msg.region (g.items.eraseIdx n) else s).answerReq id r i.2
    | none =>
      if r.msg.try_ then s.answerReq id r (List.replicate 8 0)
      else if s.parkFull r.vf (tagSlice r.msg.tag) then s.setReq id { r with st := 1 }
      else
        let (n, s) := s.newId
        s.setReq id { r with st := 2, ord := n }

/-- A deposit reaches its slice (R272, R276). One whose region has been freed is acknowledged and dropped (LOG 125); one that satisfies only parked
copies is held whole while its share or quota is full (LOG 126). -/
def State.depositArrives (s : State) (id : Nat) (r : PReq) : State :=
  match get? (s.space r.asn).regions r.msg.region with
  | none => s.answerReq id r []
  | some g =>
    let item := storedItem r.msg.words
    let hit (take : Bool) (x : Nat × PReq) : Bool :=
      x.2.st == 2 && x.2.asn == r.asn && x.2.msg.region == r.msg.region && x.2.msg.take == take && itemMatches item x.2.msg.words
    let taker := leastBy (fun x => x.2.ord) (s.preqs.filter (hit true))
    if taker.isNone && s.itemsFull r.asn r.vf r.msg.region (tagSlice r.msg.tag) then s.setReq id { r with st := 1 }
    else
      let s := (s.preqs.filter (hit false)).foldl (fun s x => s.answerReq x.1 x.2 item) s
      let s := match taker with
        | some t => s.answerReq t.1 t.2 item
        | none => s.setItems r.asn r.msg.region (g.items ++ [(r.vf, item)])
      s.answerReq id r []

/-- An older message of a request's lane to its slice, or the withdrawal of one, has not arrived (R271): one that is held has not (R276). The lane is the one of
that %lane identity in its team, wherever a reform has put it. -/
def State.panBehind (s : State) (id : Nat) (r : PReq) : Bool :=
  s.preqs.any fun x => decide (x.1 < id) && x.2.team == r.team && x.2.msg.tid == r.msg.tid && tagSlice x.2.msg.tag == tagSlice r.msg.tag &&
    (decide (x.2.st ≤ 1) || x.2.wd)
/-- A message reaches its slice, after the older ones of its lane; it crosses to the slice's die (R24, R271). -/
def State.panArrive (s : State) (id : Nat) (want : PMsg → Bool) : State :=
  match get? s.preqs id with
  | none => s
  | some r =>
    if r.st != 0 || !want r.msg || s.panBehind id r then s
    else
      let s := s.msg (dieOf (coreOf r.grp)) (sliceDie (tagSlice r.msg.tag))
      if r.msg.dep then s.depositArrives id r else s.requestArrives id r

/-- PANTRY_COPY_ARRIVE (R272). -/
def execPantryCopyArrive (id : Nat) (s : State) : Out := .next (s.panArrive id fun m => !m.dep && !m.take)
/-- PANTRY_TAKE_ARRIVE (R272). -/
def execPantryTakeArrive (id : Nat) (s : State) : Out := .next (s.panArrive id fun m => !m.dep && m.take)
/-- PANTRY_DEPOSIT_ARRIVE (R272). -/
def execPantryDepositArrive (id : Nat) (s : State) : Out := .next (s.panArrive id fun m => m.dep)
/-- PANTRY_WITHDRAWAL_ARRIVE (R271, R277): it follows the request that it withdraws; what was delivered before stays delivered. -/
def execPantryWithdrawalArrive (id : Nat) (s : State) : Out :=
  match get? s.preqs id with
  | some r => .next (if r.wd && r.st != 0 then { s with preqs := drop s.preqs id } else s)
  | none => .next s
/-- PANTRY_HELD_RESEND (R276): a held request is sent again when its limit no longer holds it. -/
def execPantryHeldResend (id : Nat) (s : State) : Out :=
  match get? s.preqs id with
  | some r =>
    let slice := tagSlice r.msg.tag
    let full := if r.msg.dep then s.itemsFull r.asn r.vf r.msg.region slice else s.parkFull r.vf slice
    .next (if r.st == 1 && !full then s.setReq id { r with st := 0 } else s)
  | none => .next s

/-! ### Answers -/

/-- The rows of an item land in one lane (R279). -/
def Group.landItem (g : Group) (depth d l : Nat) (ws : List W64) : Group :=
  (List.range 16).foldl (fun g i =>
    let w := ws.getD (i / 2) 0
    let x := if i % 2 = 0 then loW w else hiW w
    let p := aliasRow g.frames depth (d + i) 32
    g.setFrameAt p.1 ((g.frameAt p.1).setRow p.2 (BitVec.ofNat 64 (2 ^ l)) (Vector.replicate 64 x))) g

/-- PANTRY_ANSWER_LAND (R277, R279): rows land; when every lane has its answer the group acquires and its lanes go on together. -/
def execPantryAnswerLand (id : Nat) (s : State) : Out :=
  match get? s.preqs id with
  | none => .next s
  | some r =>
    let g := s.grp r.grp
    match r.ans, g.mio.pans.find? fun p => p.id == r.op with
    | some ws, some p =>
      if r.st != 3 || r.wd then .next s
      else
        let s := { s with preqs := drop s.preqs id }.progress g.grid
        let s := s.msg (sliceDie (tagSlice r.msg.tag)) (dieOf (coreOf r.grp))
        let g := match p.dst with
          | some d => g.landItem p.depth d r.msg.lane ws
          | none => g
        let left := p.left.filter (· != r.msg.lane)
        let others := g.mio.pans.filter fun q => q.id != p.id
        if left != [] then .next (s.setGrp r.grp { g with mio := { g.mio with pans := g.mio.pans.map fun q => if q.id == p.id then { q with left := left } else q } })
        else
          let g := { g with mio := { g.mio with pans := others } }
          let s := s.setGrp r.grp (g.endWaits (· == .pan p.id))
          match p.dst with
          | none => .next s
          | some d =>
            let rows := (List.range 16).map (d + ·)
            let s := s.acquireBy r.grp .pkg
            let s := s.noteRows r.grp p.pc p.mask p.depth rows
            let s := if p.traced then s.traceInstr r.grp p.pc p.mask [] p.depth rows else s
            .next (s.haltAt r.grp p.seq)
    | _, _ => .next s

/-! ### The instructions -/

/-- The fault of an unbound region (R266). -/
def panFault (gr : Grid) (act : Mask) (n : Nat) : Option Flt := fltIf (!gr.panBound n) (flt 0x0A03 act n 0)
/-- The fault of the lanes whose word 0 is bad (R278, R279). -/
def panWordFault (g : Group) (act : Mask) (v : VSrc) (kind : Nat) (bad : W64 → Bool) : Option Flt :=
  let m := act &&& maskOf fun l => bad (runWord g v 0 l)
  fltIf (m != 0) (flt kind m (runWord g v 0 (lowestOf m)).toNat 0)

/-- A pantry instruction begins: its lanes wait for the answers (R277). -/
def State.panBegin (s : State) (c : Ctx) (act : Mask) (id : Nat) (dst : Option Nat) : State :=
  s.upd c.key fun g =>
    let g := g.addWait act (.pan id)
    { g with mio := { g.mio with
        seq := g.mio.seq + 1
        pans := g.mio.pans ++ [{ id := id, seq := g.mio.seq, mask := act, left := lanesOf act, dst := dst, depth := g.fdepth, pc := c.pc
                                 traced := dst.isSome && g.studied && g.study.level == 3 }] } }

/-- Send one message to its slice. -/
def State.sendPan (s : State) (k op : Nat) (m : PMsg) : State :=
  let g := s.grp k
  let gr := s.gridOf g
  let (id, s) := s.newId
  s.setReq id { msg := m, asn := (s.asnOf gr.vf).getD 0, vf := gr.vf, grp := k, op := op, st := 0, ans := none, team := g.team, num := g.num }

/-- `pdep` (R274, R278): a release at `.pkg`, then the deposits. -/
def execPdep (item : VSrc) (n : Fin 16) (s : State) : Out :=
  issue s none (fun c act => { srcs := [(item, 16)], wait := true, attr := panFault (s.gridOf c.g) act n.val
                               val := panWordFault c.g act item 0x0A01 itemBad })
    fun c act s _ =>
      let (id, s) := (s.publish c.g.team).newId
      let s := s.panBegin c act id none
      let base := (s.gridOf c.g).panBase n.val
      let msgs := (lanesOf act).map fun l => { take := false, dep := true, try_ := false, region := base, lane := l, words := runWords c.g item l, tid := c.g.tidAt l : PMsg }
      s.upd c.key fun g => g.enqueue (.rel .pkg (.pdep id msgs))

/-- `pcopy` and `ptake` (R274, R279). -/
def panRequest (take : Bool) (f : XPan) (s : State) : Out :=
  issue s none (fun c act => { srcs := [(f.p, 16)], dsts := [(f.d.val, 16)], wait := true, late := true
                               attr := panFault (s.gridOf c.g) act f.n.val
                               val := panWordFault c.g act f.p 0x0A02 patBad })
    fun c act s _ =>
      let (id, s) := s.newId
      let s := s.panBegin c act id (some f.d.val)
      let base := (s.gridOf c.g).panBase f.n.val
      (lanesOf act).foldl (fun s l =>
        s.sendPan c.key id { take := take, dep := false, try_ := f.try_, region := base, lane := l, words := runWords c.g f.p l, tid := c.g.tidAt l }) s
/-- `pcopy` (R279). -/
def execPcopy (f : XPan) (s : State) : Out := panRequest false f s
/-- `ptake` (R279). -/
def execPtake (f : XPan) (s : State) : Out := panRequest true f s

end Sys2Proof.Machine
end

