-- ==== Sys2Proof/Machine/System.lean ====
section
/-! DEFINITION. Special registers (R199 to R201), the clocks (R202), `spool` (R203), `bound` (R449). -/

namespace Sys2Proof.Machine

/-- Coordinates of a team (R34). -/
def Grid.coord (g : Grid) (lin i : Nat) : Nat :=
  match i with
  | 0 => lin % g.dim 0
  | 1 => lin / g.dim 0 % g.dim 1
  | _ => lin / (g.dim 0 * g.dim 1)
/-- The gang position of a team (R32). -/
def gangPos (t : Nat) (tm : Team) : Nat := (findIdx (· == t) tm.gangTeams).elim 0 Prod.fst
/-- Dies of a grid's mask below a die (R17, R470). -/
def State.dieRank (s : State) (g : Grid) (d : Nat) : Nat := ((List.range d).filter (s.inDies g)).length

/-- The value of a special register, in lane L for a lane register (R199). -/
def State.special (s : State) (k : Nat) (r : SpReg) (l : Nat) : Nat :=
  let g := s.grp k
  let gr := s.gridOf g
  let tm := s.team g.team
  let c := coreOf k
  match r with
  | .lane => l
  | .tid => (g.lanes.tid.toList.getD l 0).toNat
  | .group => g.num
  | .ngroup => gr.ngroup
  | .role => g.role
  | .teamX => gr.coord tm.lin 0
  | .teamY => gr.coord tm.lin 1
  | .teamZ => gr.coord tm.lin 2
  | .nteamX => gr.dim 0
  | .nteamY => gr.dim 1
  | .nteamZ => gr.dim 2
  | .suite => tm.first % 64 / 4
  | .gang => gangPos g.team tm
  | .die => s.dieRank gr (dieOf tm.first)
  | .ndie => s.dieRank gr 4
  | .dieclass => if dieOf tm.first < 2 then 0 else 1
  | .grid => gr.num.toNat
  | .core => c
  | .fdepth => g.fdepth
  | .unw => g.regs.unw
  | .srseed => (s.core c).seed.toNat
  | .rbk => tm.rbk.toNat
  | .trapcode => if g.regs.traps = [] then 0 else g.regs.trapcode.toNat
  | .trapval => if g.regs.traps = [] then 0 else g.regs.trapval.toNat
  | .studied => if g.studied then 1 else 0
  | .part => s.partOf gr
  | .vf => gr.vf
  | .gen => (s.spaceOf g.grid).gen
  | .xqsel => g.regs.xqsel.toNat

/-- The word of a system instruction (R118, R130): sub8, f3, f2, f1. -/
def sysWord (sub f3 f2 f1 : Nat) : Nat := sub * 2 ^ 24 + f3 * 2 ^ 23 + f2 * 2 ^ 17 + f1 * 2 ^ 11 + 0x7D

/-- The registers whose reads are privileged (R135). -/
def SpReg.secret : SpReg → Bool
  | .studied | .part | .vf => true
  | _ => false
/-- The registers whose writes are privileged (R135). -/
def SpReg.guarded : SpReg → Bool
  | .srseed | .trapcode | .trapval => true
  | _ => false

/-- `gsr` (R200). -/
def execGsr (r : SpReg) (sd : SReg) (s : State) : Out :=
  issue s none (fun _ act => { sdsts := [sd.val], priv := fltIf (Sys2Proof.Machine.SpReg.secret r) (flt 0x0202 act r.code (sysWord 82 0 r.code sd.val)) })
    fun c act s _ => s.upd c.key fun g => g.setS sd (BitVec.ofNat 64 (s.special c.key r (lowestOf act)))
/-- `gsrv` (R200). -/
def execGsrv (nw : Bool) (r : SpReg) (d : VReg) (s : State) : Out :=
  issue s none (fun _ act => { dsts := [(d.val, 1)], nw := nw
                               priv := fltIf (Sys2Proof.Machine.SpReg.secret r) (flt 0x0202 act r.code (sysWord 83 (if nw then 1 else 0) r.code d.val)) })
    fun c act s _ => s.upd c.key fun g => g.result nw act d.val (tab fun l => BitVec.ofNat 32 (s.special c.key r l))

/-- Write a special register (R108, R201, R418); with an empty trap stack %trapcode and %trapval stay 0. -/
def State.setSpecial (s : State) (k : Nat) (r : SpReg) (v : W64) : State :=
  let g := s.grp k
  match r with
  | .xqsel => s.setGrp k { g with regs := { g.regs with xqsel := v.setWidth 2 } }
  | .srseed =>
    let c := s.core (coreOf k)
    s.setCore (coreOf k) { c with seed := loW v, gens := (List.range 8).map fun j => (j, genSeed (loW v) j) }
  | .trapcode => if g.regs.traps = [] then s else s.setGrp k { g with regs := { g.regs with trapcode := v.setWidth 16 } }
  | .trapval =>
    match g.regs.traps with
    | [] => s
    | e :: t => s.setGrp k { g with regs := { g.regs with trapval := v, traps := { e with wrote := true } :: t } }
  | _ => s
/-- `ssr` (R201). -/
def execSsr (r : SpReg) (r1 : SReg) (s : State) : Out :=
  issue s none (fun _ act => { ssrcs := [r1.val], priv := fltIf (Sys2Proof.Machine.SpReg.guarded r) (flt 0x0203 act r.code (sysWord 84 0 r.code r1.val)) })
    fun c _ s _ => s.setSpecial c.key r (c.g.s r1)

/-- `clk` (R27, R202): the counter has advanced by some cycles (LOG 4). -/
def execClk (sd : SReg) (s : State) : Out :=
  issue s none (fun _ _ => { sdsts := [sd.val] })
    fun c _ s _ =>
      let co := s.core (coreOf c.key)
      let n := co.clk + BitVec.ofNat 64 (Config.clkAdvance s.fresh)
      ({ s.setCore (coreOf c.key) { co with clk := n } with fresh := s.fresh + 1 }).upd c.key fun g => g.setS sd n
/-- `lclk` (R23, R202): an event of the die. -/
def execLclk (sd : SReg) (s : State) : Out :=
  issue s none (fun _ _ => { sdsts := [sd.val] })
    fun c _ s _ =>
      let d := s.die (dieOf (coreOf c.key))
      (s.setDie (dieOf (coreOf c.key)) { d with count := d.count + 1 }).upd c.key fun g => g.setS sd (d.count + 1)
/-- `spool` (R203): the base of a pool entry, whatever its kind. -/
def execSpool (i : BitVec 8) (sd : SReg) (s : State) : Out :=
  issue s none (fun c act => { sdsts := [sd.val], val := fltIf (decide ((s.gridOf c.g).poolCount ≤ i.toNat)) (flt 0x0501 act (s.gridOf c.g).poolCount i.toNat) })
    fun c _ s _ => s.upd c.key fun g => g.setS sd (BitVec.ofNat 64 (fieldAt ((s.gridOf c.g).poolEntry i.toNat) 8 8))

/-- The summary of a bound register that counted (R451). -/
def State.boundSummary (s : State) (k b : Nat) (x : Bd) : State :=
  if x.act = 1 ∧ 0 < x.count then s.homePush k (s.gridRec k 0 2 0x0E02 0 (b + x.count * 2 ^ 32)) else s
/-- A message from a die to every other die that holds the grid, and its answer. -/
def State.tellDies (s : State) (d k : Nat) : State := (s.gridDies k).foldl (fun s e => (s.msg d e).msg e d) s
/-- `bound` (R448, R449): a card of length 0 turns the register off. -/
def execBound (b : Fin 64) (r1 : SReg) (s : State) : Out :=
  issue s none
    (fun c act =>
      let o := (c.g.s r1).toNat
      let fits := o % 32 == 0 && decide (o + 32 ≤ (s.gridOf c.g).alloc)
      { ssrcs := [r1.val]
        stall := c.g.readsOpen
        val := fltIf (fits && bdBad (s.scrCard c o 32)) (flt 0x0E04 act 0 0)
        reqs := (lanesOf act).map fun l => { lane := l, va := o, n := 32, align := 32, acc := 0, form := .card } })
    fun c _ s _ =>
      let k := c.g.grid
      let new := Bd.ofBytes (s.scrCard c (c.g.s r1).toNat 32)
      let s := s.boundSummary k b.val (get {} (s.grid k).bds b.val)
      let s := s.tellDies (dieOf (coreOf c.key)) k
      let gr := s.grid k
      s.setGrid k { gr with bds := if new.len = 0 then drop gr.bds b.val else put gr.bds b.val new }

end Sys2Proof.Machine
end

