-- ==== Sys2Proof/Machine/Launch.lean ====
section
/-! DEFINITION. Acceptance of grids and relaunches (R299 to R306, R319, R330, R416, R432), `launch`, `rlnch` and `dmark` (R303, R331, R332). -/

namespace Sys2Proof.Machine

/-! ### What a card asks for -/

/-- Class preference of a card. -/
def Grid.cls (g : Grid) : Nat := cardByte g.card 4 / 16 % 4
/-- STRICT. -/
def Grid.strict (g : Grid) : Bool := cardByte g.card 4 / 64 % 2 == 1
/-- A die is of the preferred class; with no preference every die is. -/
def Grid.prefers (g : Grid) (d : Nat) : Bool := g.cls == 0 || (g.cls == 1 && decide (d < 2)) || (g.cls == 2 && decide (2 ≤ d))
/-- The dies of a card's mask, limited to the preferred class under STRICT, ascending (R310, R470). -/
def State.maskDies (s : State) (g : Grid) : List Nat := (List.range 4).filter fun d => s.inDies g d && (!g.strict || g.prefers d)
/-- The candidate dies (R310): in safe function only the safe-function die (R378). -/
def State.candidates (s : State) (g : Grid) : List Nat :=
  if s.mod_.stage = 1 then (s.maskDies g).filter (· == s.mod_.safeDie) else s.maskDies g
/-- DIERES or GRIDRES. -/
def Grid.coresident (g : Grid) : Bool := g.attr 3 || g.attr 4
/-- Rows that a team takes (R35). -/
def Grid.teamRows (g : Grid) : Nat := (List.range 4).foldl (fun a r => a + g.roleGroups r * (g.roleNv r + 16 * g.roleNm r)) 0
/-- Scratchpad bytes that a team takes (R35): a reserve when its kernel declares hatches or it uses sparse index queues. -/
def State.teamScr (s : State) (g : Grid) : Nat :=
  let hatches := (get [] s.decls ((s.asnOf g.vf).getD 0 * 2 ^ 64 + fieldAt g.card 24 8)).any (0 < ·)
  g.alloc + (if hatches || g.attr 5 then 1024 else 0)
/-- First index and length of the block of the candidate of rank r of d (R311). -/
def Grid.block (g : Grid) (d r : Nat) : Nat × Nat :=
  let n := g.teams
  let lo := (r * n + d - 1) / d
  (lo, ((r + 1) * n + d - 1) / d - lo)

/-- Teams of a grid that an empty core of its partition holds (R35, R50, R309, R388). -/
def State.perCore (s : State) (g : Grid) : Nat :=
  let p := s.part (s.partOf g)
  let part (total take : Nat) : Nat := if take = 0 then 128 else total / take
  if !p.reg.getLsbD 40 then 0
  else
    let rows := if g.guarded then p.rows - p.rows / 8 else p.rows
    let scr := if g.guarded then p.scr - p.scr / 16 else p.scr
    let a := min (part p.slots.2 g.ngroup) (part rows g.teamRows)
    let b := min (part scr (s.teamScr g)) (part p.sems.2 g.nsem)
    min (min a b) (if g.guarded then s.cellarShare (s.partOf g) / 1048576 else 128)
/-- A block of teams fits on an empty die whose cores hold n teams each (R311, R312): eleven suites of four cores and one of three hold whole gangs, and a
last one that is smaller may stand on the cores that these leave. -/
def blockFits (n gang block : Nat) : Bool :=
  if gang = 0 then decide (block ≤ 47 * n)
  else
    let whole := 11 * (n * (4 / gang)) + n * (3 / gang)
    decide (block / gang < whole) || (block / gang == whole && decide (block % gang ≤ max (4 % gang) (3 % gang)))
/-- The grid fits on an empty partition (R301): each block on its die, or one team or gang (LOG 54); a co-resident grid is divided over the dies of its mask also
in safe function (LOG 149). -/
def State.fitsEmpty (s : State) (g : Grid) : Bool :=
  let n := s.perCore g
  let d := (s.maskDies g).length
  decide (0 < n) && (!g.coresident || (List.range d).all fun r => blockFits n g.gang (g.block d r).2)

/-! ### Refusal -/

/-- Reserved fields of a launch card that are not 0. -/
def cardReserved (c : List Byte) : Bool :=
  decide (128 ≤ cardByte c 1) || decide (8 ≤ cardByte c 3) || decide (128 ≤ cardByte c 4) || someByte c 42 48 || someByte c 76 80 || someByte c 96 104 ||
    someByte c 121 128 || (List.range 4).any fun r => cardByte c (51 + 4 * r) != 0 || (decide (cardByte c 7 ≤ r) && someByte c (48 + 4 * r) (52 + 4 * r))
/-- A limit of R299 or R29 is broken. -/
def Grid.limits (g : Grid) : Bool :=
  let c := g.card
  let n := cardByte c 7
  n == 0 || decide (4 < n) || decide (4 < g.gang) || decide (64 < cardByte c 5) || decide (16 < g.nsem) || decide (8388608 < g.scratch) ||
    decide (256 < g.poolCount) || cardByte c 24 % 2 == 1 || decide (2 ^ 32 < g.teams) || g.ngroup == 0 || decide (16 < g.ngroup) ||
    (List.range (min n 4)).any fun r => g.roleNv r == 0 || decide (60 < g.roleNv r) || decide (8 < g.roleNm r)
/-- Edge kind e of a byte of edge kinds. -/
def edgeKind (b e : Nat) : Nat := b / 4 ^ e % 4
/-- The predecessors of a card: key of the grid, whether its completion. -/
def cardEdges (vf : Nat) (c : List Byte) (offPreds offKinds : Nat) : List (Nat × Bool) :=
  (List.range 4).filterMap fun e =>
    let k := edgeKind (cardByte c offKinds) e
    if k = 0 then none else some (vf * 2 ^ 32 + fieldAt c (offPreds + 4 * e) 4, k == 1)
/-- Every byte of an attic is mapped as writable device memory (R432). -/
def State.atticMapped (s : State) (asn : Option Nat) (a n : Nat) : Bool :=
  (List.range (n / 65536 + 2)).all fun i =>
    let va := min (a + i * 65536) (a + n - 1)
    decide (a + n ≤ 2 ^ 47) && match s.walk asn va with
      | .ok e _ => pteTgt e == 0 && pteW e && !pteP e
      | .bad _ _ => false

/-- The first reason of a list that holds. -/
def firstReason : List (Bool × Nat) → Option Nat
  | [] => none
  | (b, r) :: t => if b then some r else firstReason t

/-- The reason for which a launch card is refused (R301, R416, R432), the lowest first. `g` carries the card and the bindings that were read;
`unbound` says that these could not be read, `unread` that they or a pool entry could not. -/
def State.refusal (s : State) (g : Grid) (unbound unread : Bool) : Option Nat :=
  let c := g.card
  let asn := s.asnOf g.vf
  let pans := (List.range 16).filter g.panBound
  let preds := cardEdges g.vf c 104 120
  let n := 1024 + 128 * g.teams
  if c.length ≠ 256 then some 17
  else firstReason [(cardByte c 0 != 1, 1), (cardReserved c, 2), (g.limits, 3), (g.attr 2 && g.gang == 0, 4),
    (g.attr 5 && decide (g.scratch < 8192), 5), (g.dies == 0 || g.cls == 3 || s.maskDies g == [], 6),
    (!unbound && ((List.range 16).filter g.winBound).any (fun w => g.winSize w == 0 || decide (2 ^ 40 < g.winSize w)), 7),
    (!unbound && pans.any (fun p => (get? (s.space (asn.getD 0)).regions (g.panBase p)).isNone), 8),
    (g.recordable && (g.parlour != 0 || pans != [] || g.attr 6 || g.attr 3 || g.attr 4), 9),
    ((List.range 4).any (fun e => edgeKind (cardByte c 120) e == 3), 10),
    (preds.any (fun p => (get? s.grids p.1).isNone), 11), (!s.fitsEmpty g, 12),
    (g.recordable && (g.attic == 0 || g.attic % 1024 != 0), 13), (g.recordable && !s.atticMapped asn g.attic n, 16), (unread, 17)]

/-- The distributor, on the hub die, reads a pool of `n` entries of 32 bytes for a queue (R180, R300): the entries, none when one cannot be read, and the
state with the messages of its reads. -/
def State.readPool (s : State) (vf q base : Nat) : Nat → Option (List (List Byte)) × State
  | 0 => (some [], s)
  | n + 1 =>
    let g := s.fwGet 4 vf q base 32
    let t := g.2.readPool vf q (base + 32) n
    (match g.1, t.1 with
     | some b, some l => some (b :: l)
     | _, _ => none, t.2)

/-- What the distributor answers: it waits, refuses with a reason, or accepts a grid. -/
inductive Answer where
  | wait
  | refuse (s : State) (reason : Nat)
  | ok (s : State) (k : Nat)

/-- KiB of attic that a VF's accepted recordable grids hold (R391). -/
def State.atticHeld (s : State) (vf : Nat) : Nat :=
  s.grids.foldl (fun a e => if e.2.vf == vf && !e.2.run.done && (e.2.recordable || e.2.rl.isSome) then a + (1024 + 128 * e.2.teams + 1023) / 1024 else a) 0
/-- The card waits for the ATTIC quota (R392). -/
def State.atticWaits (s : State) (g : Grid) : Bool :=
  g.recordable && decide (bits (s.vf g.vf).quota1 0 32 < s.atticHeld g.vf + (1024 + 128 * g.teams + 1023) / 1024)
/-- The card waits for the ATTIC quota or for room among a partition's 4,096 grids (R392, R433). -/
def State.acceptWaits (s : State) (g : Grid) : Bool :=
  s.atticWaits g ||
  decide (4096 ≤ (s.grids.filter fun e => !e.2.run.done && s.partOf e.2 == s.partOf g).length)

/-- The number after n (R302). -/
def nextNum (n : W32) : W32 := if n = -1 then 1 else n + 1
/-- The next grid number of a VF from `n` on that no incomplete grid holds. -/
def State.freeNum (s : State) (vf : Nat) (n : W32) : Nat → W32
  | 0 => n
  | f + 1 => match get? s.grids (vf * 2 ^ 32 + n.toNat) with
    | some g => if g.run.done then n else s.freeNum vf (nextNum n) f
    | none => n

/-- The last team of a grid has been placed (R305): of a relaunch, when no round can find a further one to run. -/
def Grid.allPlaced (g : Grid) : Bool := match g.rl with
  | some r => r.begun && r.todo == [] && r.rest == []
  | none => decide (g.teams ≤ g.run.next)

/-- An edge to an accepted grid, resolved when that grid has completed, or has placed its last team (R305). -/
def State.newEdge (s : State) (p : Nat × Bool) : Nat × Bool × Bool :=
  let g := s.grid p.1
  (p.1, p.2, g.run.done || (!p.2 && g.allPlaced))

/-- A grid enters the line (R302, R307); instruction caches drop what they hold of it (R64). -/
def State.enterGrid (s : State) (g : Grid) (edges : List (Nat × Bool)) : State × Nat :=
  let v := s.vf g.vf
  let n := s.freeNum g.vf v.nextGrid (s.grids.length + 1)
  let k := g.vf * 2 ^ 32 + n.toNat
  let (o, s) := s.newId
  let s := s.setVf g.vf { v with nextGrid := nextNum n }
  let s := { s.dropCode k with grids := put s.grids k { g with num := n, order := o, prio := min g.prio v.maxprio, edges := edges.map s.newEdge } }
  (s, k)

/-- The attic header at the acceptance of a grid (R319). Where both masks are 0 no binding table is read (R300), and zeros stand for it (LOG 151). -/
def Grid.header (g : Grid) : List Byte := g.card ++ (g.bind ++ zeros (384 - g.bind.length)) ++ leBytes 4 g.num.toNat ++ zeros 380

/-- The tables that a card names wait for the link (R462): its binding table when it binds anything, and its pool. -/
def State.tablesHeld (s : State) (vf : Nat) (card : List Byte) (binds : Bool) : Bool :=
  (binds && fieldAt card 72 4 != 0 && s.fwHeld (s.asnOf vf) false (fieldAt card 64 8) 384) ||
    s.fwHeld (s.asnOf vf) false (fieldAt card 32 8) (32 * min (fieldAt card 40 2) 256)

/-- Accept or refuse a launch card (R299 to R302). -/
def State.accept (s : State) (vf : Nat) (card : List Byte) (home : Nat) (cmd : Option Nat) : Answer :=
  if s.tablesHeld vf card true then .wait
  else
  let asn := s.asnOf vf
  let b := if fieldAt card 72 4 != 0 then s.fwGet 4 vf home (fieldAt card 64 8) 384 else (some [], s)
  let bind := b.1
  let p := b.2.readPool vf home (fieldAt card 32 8) (min (fieldAt card 40 2) 256)
  let pool := p.1
  let s := p.2
  let g : Grid := { noGrid with vf := vf, card := card, bind := bind.getD (zeros 384), pool := pool.getD [], prio := cardByte card 3 % 8, home := home, cmd := cmd }
  match s.refusal g bind.isNone (bind.isNone || pool.isNone) with
  | some r => .refuse s r
  | none =>
    if s.acceptWaits g then .wait
    else
      let s0 := s
      let (s, k) := s.enterGrid g (cardEdges vf card 104 120)
      if !g.recordable then .ok s k
      else match s.fwWrite 4 asn g.attic (s.grid k).header with
      | some s => .ok s k
      | none => .refuse s0 16

/-- The reason for which a relaunch card is refused (R330, R416). None of them is an attic base that is no multiple of 1,024: the header is read where the
card says (LOG 150). -/
def State.refusalRl (s : State) (vf : Nat) (c hdr : List Byte) (unread : Bool) : Option Nat :=
  if c.length ≠ 64 then some 17
  else firstReason [(cardByte c 0 != 2, 1),
    (decide (2 ≤ cardByte c 1) || cardByte c 2 != 0 || decide (8 ≤ cardByte c 3) || someByte c 4 8 || someByte c 41 64, 2),
    ((List.range 4).any (fun e => edgeKind (cardByte c 40) e == 3), 10),
    ((cardEdges vf c 24 40).any (fun p => (get? s.grids p.1).isNone), 11), (cardByte hdr 644 != 1, 14), (cardByte hdr 1 / 2 % 2 != 1, 15), (unread, 17)]

/-- The card of a relaunch (R330): that of the attic header, with the completion address of the relaunch card. -/
def rlCard (hdr c : List Byte) : List Byte := setField (hdr.take 256) 88 8 (fieldAt c 16 8)

/-- Accept or refuse a relaunch card (R330): the grid of the stored card and bindings, with its own priority, edges and completion address, and an
edge from every incomplete grid of the VF that names the same attic. -/
def State.acceptRl (s : State) (vf : Nat) (c : List Byte) (home : Nat) (cmd : Option Nat) : Answer :=
  let asn := s.asnOf vf
  let attic := fieldAt c 8 8
  if s.fwHeld asn false attic 1024 then .wait
  else
  let h := s.fwGet 4 vf home attic 1024
  let hdr := h.1.getD []
  let card := rlCard hdr c
  if s.tablesHeld vf card false then .wait
  else
  let p := h.2.readPool vf home (fieldAt card 32 8) (min (fieldAt card 40 2) 256)
  let pool := p.1
  let s := p.2
  match s.refusalRl vf c hdr pool.isNone with
  | some r => .refuse s r
  | none =>
    let g : Grid := { noGrid with
      vf := vf, card := card, bind := (hdr.drop 256).take 384, pool := pool.getD [], prio := cardByte c 3 % 8, home := home, cmd := cmd
      rl := some { attic := attic, round := 0, todo := [], rest := [], q := 0, rerun := [], all := cardByte c 1 % 2 == 1, begun := false } }
    if s.acceptWaits g then .wait
    else
      let same := (s.grids.filter fun (e : Nat × Grid) => e.2.vf == vf && !e.2.run.done && (e.2.recordable || e.2.rl.isSome) && e.2.attic == attic).map
        fun (e : Nat × Grid) => (e.1, true)
      let (s, k) := s.enterGrid g (cardEdges vf c 24 40 ++ same)
      match s.fwWrite 4 asn (attic + 640) (leBytes 4 (s.grid k).num.toNat ++ leBytes 1 0) with
      | some s => .ok s k
      | none => .ok s k

/-- A relaunch whose state 0 cannot be written to its attic is contained (R319, R432). -/
def State.atticLost (s : State) (k : Nat) : State :=
  let gr := s.grid k
  if gr.rl.isNone || (s.fwWrite 4 (s.asnOf gr.vf) (gr.attic + 640) (leBytes 4 gr.num.toNat ++ leBytes 1 0)).isSome then s
  else (s.contPush k (s.gridRec k 0 3 0x0C03 (gr.attic + 640) 0)).containGrid k 1

/-! ### The instructions -/

/-- Bytes of the own scratchpad as a card, none when some of them are poisoned (R300). -/
def State.cardBytes (s : State) (c : Ctx) (off n : Nat) : List Byte :=
  let b := s.readAcc (coreOf c.key) (s.gridOf c.g).fused c.g.mio.fifo c.g.mio.seq ⟨0, scrBase + off, .scr c.g.team off, n⟩
  if b.any Prod.snd then [] else b.map Prod.fst

/-- `launch` and `rlnch` (R303, R331): the interval is published, a release at `.pkg` begins, and the group stalls until the answer. -/
def launchCard (rel : Bool) (n : Nat) (r1 : SReg) (s : State) : Out :=
  issue s none
    (fun c act => { ssrcs := [r1.val], sdsts := [r1.val], stall := c.g.readsOpen
                    reqs := (lanesOf act).map fun l => { lane := l, va := (c.g.s r1).toNat, n := n, align := n, acc := 0, form := .card } })
    fun c act s _ =>
      let card := s.cardBytes c (c.g.s r1).toNat n
      (s.publish c.g.team).upd c.key fun g => { g.enqueue (.rel .pkg .none) with stall := some (.launch c.pc act card r1.val rel (c.g.s r1)) }
/-- `launch` (R303). -/
def execLaunch (r1 : SReg) (s : State) : Out := launchCard false 256 r1 s
/-- `rlnch` (R331). -/
def execRlnch (r1 : SReg) (s : State) : Out := launchCard true 64 r1 s

/-- LAUNCH_ANSWER (R303, R331): once the release has completed, the distributor, on the hub die, answers; a refusal is a precise fault of the
instruction. -/
def execLaunchAnswer (k : Nat) (s : State) : Out :=
  let g := s.grp k
  match g.stall with
  | some (.launch pc mask card r rel off) =>
    if g.mio.fifo != [] then .next s
    else
      let gr := s.gridOf g
      let d := dieOf (coreOf k)
      let q := s.msg d 4
      let e := if rel then 0x0C02 else 0x0C01
      match if rel then q.acceptRl gr.vf card gr.home none else q.accept gr.vf card gr.home none with
      | .wait => .next s
      | .refuse q why =>
        let f := flt e mask off.toNat why
        if s.raiseHeld k f then .next s
        else .next (((q.msg 4 d).setGrp k ({ q.grp k with stall := none }.setPc mask fun _ => pc)).raise k f mask pc pc 4 1)
      | .ok s n =>
        let s := (s.msg 4 d).upd k fun g => { g with stall := none }.setSc r ⟨BitVec.ofNat 64 (s.grid n).num.toNat, false⟩
        .next (s.atticLost n)
  | _ => .next s

/-- `dmark` (R332): a release at `.sys` begins, and the group stalls until the new plane is clear. -/
def execDmark (s : State) : Out :=
  issue s none (fun _ _ => {}) fun c _ s _ =>
    (s.publish c.g.team).upd c.key fun g => { g.enqueue (.rel .sys .none) with stall := some .plane }

/-- PLANE_CLEAR (R323, R332): the first group of an address space that stalls at `dmark` and whose release has completed: a generation opens, its
plane is clear, and the group goes on. -/
def execPlaneClear (asn : Nat) (s : State) : Out :=
  let waits (e : Nat × Group) : Bool := e.2.stall == some .plane && e.2.mio.fifo == [] && s.asnOf (s.gridOf e.2).vf == some asn
  match s.groups.find? waits with
  | some e => .next ((s.openGen asn).upd e.1 fun g => { g with stall := none })
  | none => .next s

end Sys2Proof.Machine
end

