-- ==== Sys2Proof/Machine/Agents.lean ====
section
/-! DEFINITION. The agents beside the groups: loads that land, store FIFOs that drain, atomics and releases (R66, R211, R218 to R224), walks
(R81), the cellar engine (R185 to R188), bins (R45), yields (R190), parks (R191, R400), work queues (R252), messages (R24). -/

namespace Sys2Proof.Machine

/-! ### Loads -/

/-- Two lists of accesses share a byte. -/
def accsMeet (a b : List Acc) : Bool := a.any fun x => b.any x.meets
/-- A target whose accesses the other groups of the core see in program order (R287). -/
def State.ordered (s : State) (c : Nat) : Tgt → Bool
  | .dev _ _ => true
  | .host _ cached => cached
  | .scr q _ => (s.team q).core == c
  | _ => false
/-- Some access of a list is ordered. -/
def State.anyOrdered (s : State) (c : Nat) (as : List Acc) : Bool := as.any fun a => s.ordered c a.tgt

/-- What an older entry of the store FIFO holds back: an `.ar` atomic every later access, any atomic the loads of its bytes (R223). -/
def FEnt.holdsLoad (e : FEnt) (l : Ld) : Bool :=
  decide (e.seq < l.seq) && match e.op with
    | .atom _ _ _ items ar => ar.isSome || accsMeet (items.map fun i => i.1) l.accs
    | _ => false
/-- An older acquire, a load or a copy or take of an item, has not completed (R219, R274). -/
def Group.acqBefore (g : Group) (seq : Nat) : Bool :=
  (g.mio.loads.any fun x => decide (x.seq < seq) && x.acq.isSome) || g.mio.pans.any fun p => decide (p.seq < seq) && p.dst.isSome

/-- What a group has open at work queues from before a place in its program order: `wpop`s that sleep, and `wpush`es whose record has not been read
(R252). -/
def State.wqBefore (s : State) (k seq : Nat) : List WqReq :=
  (s.vf (s.gridOf (s.grp k)).vf).wqs.flatMap fun w => w.2.line.filter fun r => r.grp == k && decide (r.seq < seq)
/-- A `wpush` whose release has not completed. -/
def FEnt.pushes (e : FEnt) : Bool := match e.op with
  | .rel _ (.wpush _ _ _) => true
  | _ => false

/-- A load reaches across the link (R74): an uncached page, or a cached line that the L1 does not hold. -/
def State.asksHost (s : State) (c : Nat) (fused : Bool) (a : Acc) : Bool :=
  match a.tgt with
  | .host _ false => true
  | .host h true =>
    let k := lineKey true h
    let l := get {} (s.core (l1Core fused c k)).l1 k
    !(List.range a.n).all fun i => l.valid (h % 128 + i)
  | _ => false

/-- A load may take its value: its core has accepted it (R209), no older acquire is out, no older load of a byte of its own or, for an ordered target, of any ordered target,
no older atomic holds it, no older `wpop` sleeps, and for an ordered target no older `wpush` has its read before it (R219, R223, R252, R285 to R287,
LOG 6). -/
def State.landable (s : State) (k : Nat) (l : Ld) : Bool :=
  let g := s.grp k
  let c := coreOf k
  let older := g.mio.loads.filter fun x => decide (x.seq < l.seq)
  !(s.linkHeld && l.accs.any fun a => s.asksHost c (s.gridOf g).fused a) && !g.acqBefore l.seq && !g.acqOpen l.seq && !g.unasked l.seq && !(g.mio.fifo.any fun e => e.holdsLoad l || (e.pushes && decide (e.seq < l.seq) && s.anyOrdered c l.accs)) &&
    !((s.wqBefore k l.seq).any fun r => !r.push || s.anyOrdered c l.accs) &&
    !older.any fun x => accsMeet x.accs l.accs || (s.anyOrdered c l.accs && s.anyOrdered c x.accs)

/-- What a lane loads: its bytes with their poison, zero where it reads none (R217). -/
abbrev Loaded := Nat × List (Byte × Bool)
/-- Word e of what a lane loads. -/
def Loaded.word (x : Loaded) (e : Nat) : W32 := BitVec.ofNat 32 (leNat (((x.2.drop (4 * e)).take 4).map Prod.fst))
/-- Some byte of word e is poisoned. -/
def Loaded.bad (x : Loaded) (e : Nat) : Bool := ((x.2.drop (4 * e)).take 4).any Prod.snd
/-- Word e, sign-extended from the width of the access when it is narrower (R211). -/
def Loaded.ext (x : Loaded) (signed : Bool) (e : Nat) : W32 :=
  let w := Loaded.word x e
  if signed then (match x.2.length with
    | 1 => (w.setWidth 8).signExtend 32
    | 2 => (w.setWidth 16).signExtend 32
    | _ => w)
  else w

/-- A row of a frame of the chain lands in the lanes that loaded (R211, R438), at its place in the chain (R181). -/
def Group.landAt (g : Group) (depth r : Nat) (m : Mask) (v : Vals) (px : Mask) : Group :=
  let p := aliasRow g.frames depth r 32
  g.setFrameAt p.1 ((g.frameAt p.1).landRow p.2 m v px)

/-- The lanes of what was loaded. -/
def loadedMask (xs : List Loaded) : Mask := maskOf fun l => xs.any fun x => x.1 == l
/-- What lane l loaded. -/
def loadedAt (xs : List Loaded) (l : Nat) : Loaded := (xs.find? fun x => x.1 == l).getD (l, [])

/-- A load writes its destination (R211, R216, R262). -/
def Group.landLoad (g : Group) (l : Ld) (xs : List Loaded) : Group :=
  let m := loadedMask xs
  let px (e : Nat) : Mask := maskOf fun i => Loaded.bad (loadedAt xs i) e
  match l.dst with
  | .rows signed d n => (List.range n).foldl (fun g e => g.landAt l.depth (d + e) m (tab fun i => Loaded.ext (loadedAt xs i) signed e) (px e)) g
  | .mrows d => (List.range 16).foldl (fun g e =>
      g.setFrameAt l.depth ((g.frameAt l.depth).landMRow (d + e) m (tab fun i => Loaded.word (loadedAt xs i) e) (px e))) g
  | .scalar d =>
    let x := (xs.headD (0, [])).2
    g.setScAt l.depth d ⟨BitVec.ofNat 64 (leNat (x.map Prod.fst)), x.any Prod.snd⟩
  | .none => g

/-- What an access leaves on the study core of a group when its rows land: history and value watches, and at level 3 its record (R349). -/
def State.landTrace (s : State) (k : Nat) (pc : W64) (mask issued : Mask) (accs : List Acc) (depth : Nat) (rows : List Nat) : State :=
  let s := s.noteRows k pc mask depth rows
  if rows.any (· < 64) && (s.grp k).study.level == 3 then s.traceInstr k pc issued (accs.map fun a => (a.lane, a.va)) depth rows else s

/-- A host access of the instruction at `pc`, issued in the lanes of `issued`, meets an error completion: a class 2 fault of its group (R399, R438). -/
def State.hostRecord (s : State) (k : Nat) (pc : W64) (issued m : Mask) (a : Acc) : State := s.laterFault k ⟨flt 0x0D06 m a.va a.n, issued, pc, 2⟩

/-- The accesses of a list that cross the link by themselves: each of an uncached page, and the first of each cached line. -/
def hostTrips : List Acc → List Acc
  | [] => []
  | a :: t => match a.tgt with
    | .host h true => a :: (hostTrips t).filter fun b => match b.tgt with
      | .host h' true => h' / 128 != h / 128
      | _ => true
    | _ => a :: hostTrips t

/-- LOAD_LAND (R211, R219): the n-th outstanding load of a group takes its value and lands. -/
def execLoadLand (k n : Nat) (s : State) : Out :=
  let g := s.grp k
  match g.mio.loads[n]? with
  | none => .next s
  | some l =>
    if !g.live || !s.landable k l then .next s
    else
      let gr := s.gridOf g
      let c := coreOf k
      let s := match l.acq with
        | some sc => s.acquireBy k sc
        | none => s
      let asks := l.accs.filter fun a => s.asksHost c gr.fused a
      let fails := asks != [] && Config.hostFails s.fresh
      let s := if asks = [] then s else { s with fresh := s.fresh + 1 }
      let bad (a : Acc) : Bool := fails && asks.contains a
      let sound := l.accs.filter fun a => !bad a
      -- an access that ends in an error completion has crossed the link too
      let s := (hostTrips (l.accs.filter bad)).foldl (fun s _ => s.hostTrip (dieOf c)) s
      let s := sound.foldl (fun s a => s.fetchFor c gr.fused a) s
      let width : Nat := match l.dst with
        | .rows _ _ r => 4 * r
        | .mrows _ => 64
        | .scalar _ => 8
        | .none => 0
      let read (a : Acc) : List (Byte × Bool) := (s.readAcc c gr.fused g.mio.fifo l.seq a).map fun b => (b.1, b.2 || bad a)
      let xs : List Loaded := l.accs.map fun a => (a.lane, if a.n < width && 4 ≤ a.n || a.n = 0 then read a ++ List.replicate (width - a.n) (0, false) else read a)
      let s := l.accs.foldl (fun s a => if a.n = 0 then s else s.recordRead g.team a) s
      let s := s.upd k fun g => ({ g with mio := { g.mio with loads := g.mio.loads.eraseIdx n } }).landLoad l xs
      let s := match asks with
        | a :: _ => if fails then s.hostRecord k l.pc l.mask (maskOf fun i => asks.any fun a => a.lane == i) a else s
        | [] => s
      .next (((s.landTrace k l.pc (loadedMask xs) l.mask l.accs l.depth l.dst.rows_).haltAt k l.seq).tryRetire k)

/-! ### The store FIFO -/

/-- An atomic acts in host memory (R76). -/
def FEnt.asksHost (e : FEnt) : Bool := match e.op with
  | .atom _ _ _ items _ => hostIn (items.map fun i => i.1)
  | _ => false

/-- The entry performs an access of its own; a marker performs none. -/
def FEnt.accesses (e : FEnt) : Bool := match e.op with
  | .rel _ _ => false
  | _ => true

/-- The head of a store FIFO waits for an older load, or an older copy or take, to take its value, for the write of an older `wpop` and the read of an
older `wpush` (R219, R252, R274, R286, R288); an access waits for the older acquires of waiting lanes (R219), an atomic for its requests (R209), and one of
host memory while the link carries nothing (R462). -/
def State.headHeld (s : State) (k : Nat) (e : FEnt) : Bool :=
  let g := s.grp k
  (g.mio.loads.any fun l => decide (l.seq < e.seq)) || (g.mio.pans.any fun p => decide (p.seq < e.seq) && p.dst.isSome) || s.wqBefore k e.seq != [] ||
    (e.accesses && (g.acqOpen e.seq || g.unasked e.seq)) || (s.linkHeld && e.asksHost)

/-- The head leaves the FIFO. -/
def Group.dropHead (g : Group) : Group := { g with mio := { g.mio with fifo := g.mio.fifo.tail } }

/-- STORE_DRAIN (R66, R207, R452): the store or `poison` at the head of a group's FIFO is performed. -/
def execStoreDrain (k : Nat) (s : State) : Out :=
  let g := s.grp k
  let gr := s.gridOf g
  let c := coreOf k
  let asn := s.asnOf gr.vf
  match g.mio.fifo with
  | [] => .next s
  | e :: _ =>
    if s.headHeld k e then .next s
    else match e.op with
    | .store items => .next (((s.storeAll g.team c gr.fused asn items).upd k Group.dropHead).tryRetire k)
    | .poison items => .next (((items.foldl (fun s a => s.poisonOne g.team c gr.fused asn a) s).upd k Group.dropHead).tryRetire k)
    | _ => .next s

/-- One lane of an atomic that the host answers with an error completion (R438): whether the location changed is free. -/
def State.atomFails (s : State) (k : Nat) (op : AtomOp) (wide : Bool) (a : Acc) (y z : W64) (pc : W64) (issued : Mask) : State × W64 × Bool :=
  let g := s.grp k
  let gr := s.gridOf g
  let r := s.atomOne g.team (coreOf k) gr.fused (s.asnOf gr.vf) op wide a y z
  match a.tgt with
  | .host _ _ =>
    if Config.hostFails s.fresh then
      let t := if Config.hostChanged s.fresh then r.1 else (s.dropCopies (coreOf k) gr.fused a).hostTrip (dieOf (coreOf k))
      ({ t with fresh := s.fresh + 1 }.hostRecord k pc issued (BitVec.ofNat 64 (2 ^ a.lane)) a, r.2.1, true)
    else ({ r.1 with fresh := s.fresh + 1 }, r.2)
  | _ => r

/-- The lanes of an atomic in ascending order: the state, and each lane's old value and poison. -/
def State.atomLanes (s : State) (k : Nat) (op : AtomOp) (wide : Bool) (pc : W64) (issued : Mask) : List (Acc × W64 × W64) → State × List (Nat × W64 × Bool)
  | [] => (s, [])
  | it :: t =>
    let r := s.atomFails k op wide it.1 it.2.1 it.2.2 pc issued
    let q := (r.1.recordRead (s.grp k).team it.1).atomLanes k op wide pc issued t
    (q.1, (it.1.lane, r.2.1, r.2.2) :: q.2)

/-- ATOMIC_PERFORM (R222, R223): the atomic at the head of a group's FIFO is performed and its old values land. -/
def execAtomicPerform (k : Nat) (s : State) : Out :=
  let g := s.grp k
  match g.mio.fifo with
  | [] => .next s
  | e :: _ =>
    if s.headHeld k e then .next s
    else match e.op with
    | .atom op wide dst items ar =>
      let r := s.atomLanes k op wide e.pc e.mask items
      let old (l : Nat) : W64 := (r.2.find? fun x => x.1 == l).elim 0 fun x => x.2.1
      let m := maskOf fun l => r.2.any fun x => x.1 == l
      let px := maskOf fun l => r.2.any fun x => x.1 == l && x.2.2
      let rows := match dst with
        | some d => if wide then [d, d + 1] else [d]
        | none => []
      let s := r.1.upd k fun g => rows.zipIdx.foldl (fun g x =>
        g.landAt e.depth x.1 m (tab fun l => if x.2 = 0 then loW (old l) else hiW (old l)) px) g.dropHead
      let s := match ar with
        | some sc => s.acquireBy k sc
        | none => s
      .next (((s.landTrace k e.pc m e.mask (items.map fun i => i.1) e.depth rows).haltAt k e.seq).tryRetire k)
    | _ => .next s

/-- What a completed release carries (R219, R228, R230, R252, R274, R226). -/
def State.relAct (s : State) (k seq : Nat) : RelAct → State
  | .none => s
  | .sem set i v => s.semOp (s.grp k).team i set v
  | .hpush h v m =>
    let t := (s.grp k).team
    let tm := s.team t
    -- a push that began to wait at its issue keeps its place (R231, LOG 108)
    let waits := tm.pushers.findIdx fun x => x == (h, k, v, m, false)
    let ps := if waits < tm.pushers.length then tm.pushers.set waits (h, k, v, m, true) else tm.pushers ++ [(h, k, v, m, true)]
    (s.setTeam t { tm with pushers := ps }).hatchServe t h
  | .wpush w off m =>
    let g := s.grp k
    let vf := (s.gridOf g).vf
    let s := s.msg (dieOf (coreOf k)) 4
    match s.wq vf w with
    | some q => s.setWq vf w { q with line := q.line ++ [{ grp := k, push := true, off := off, mask := m, seq := seq }] }
    | none => s
  | .pdep op msgs => msgs.foldl (fun s m => s.sendPan k op m) s
  | .arrive l => s.arrive k l

/-- The entry carries a release. -/
def FEnt.isRel (e : FEnt) : Bool := match e.op with
  | .rel _ _ => true
  | _ => false
/-- An entry leaves the FIFO. -/
def Group.dropAt (g : Group) (i : Nat) : Group := { g with mio := { g.mio with fifo := g.mio.fifo.eraseIdx i } }

/-- RELEASE_COMPLETE (R68, R71, R219, R289): the first marker of a group's FIFO has drained: it stands at the head, or its scope is `.grp`, for which the
entries ahead of it are far enough. -/
def execReleaseComplete (k : Nat) (s : State) : Out :=
  let g := s.grp k
  match findIdx FEnt.isRel g.mio.fifo with
  | none => .next s
  | some (i, e) =>
    match e.op with
    | .rel sc act =>
      if s.headHeld k e || (i != 0 && sc != .grp) then .next s
      else .next ((((s.release (coreOf k) (s.gridOf g).fused sc).upd k (·.dropAt i)).relAct k e.seq act).tryRetire k)
    | _ => .next s

/-! ### Walks -/

/-- The addresses of the table entries that a walk reads (R79, R80). -/
def State.walkAddrs (s : State) (va : Nat) : Nat → Nat → List Nat
  | l, table =>
    let a := table + 8 * levelIndex l va
    let e : W64 := BitVec.ofNat 64 (leNat (s.mem.dev.readN a 8))
    a :: if !e.getLsbD 0 || e.getLsbD 2 then [] else match l with
      | 0 => []
      | k + 1 => s.walkAddrs va k (bits e 8 44 * 256)
/-- A die reads each table entry of a walk at the home L2 of its line (R23, R81). -/
def State.walkTrips (s : State) (die va root : Nat) : State :=
  ((s.walkAddrs va 3 root).filter fun a => decide (a < devTop)).foldl (fun s a => s.lineTrip die a false) s

/-- Entries of a core's TLB, and of a die's (R81). -/
def coreTlb : Nat := 512
/-- Entries of a die's TLB. -/
def dieTlb : Nat := 32768
/-- Walks of a die that run at a time (R81). -/
def dieWalks : Nat := 256

/-- A translation enters the TLB of a die and those of the cores that asked for it (R81). -/
def State.tlbFill (s : State) (die : Nat) (cores : List Nat) (e : TlbEnt) : State :=
  let v := Config.victim s.fresh
  let s := { s with fresh := s.fresh + 1 }
  let s := s.setDie die { s.die die with tlb := tlbPut v dieTlb e (s.die die).tlb }
  cores.foldl (fun s c => s.setCore c { s.core c with tlb := tlbPut v coreTlb e (s.core c).tlb }) s

/-- TRANSLATION_WALK_COMPLETE (R79 to R82): a walk that runs on a die ends, and the TLBs hold its leaf from then on. A walk that fails is cached nowhere;
the access that needs it faults (R444). -/
def execTranslationWalkComplete (die asn : Nat) (va : W64) (s : State) : Out :=
  let ws := get [] s.walks die
  match findIdx (fun (m : Miss) => m.asn == asn && m.page == va.toNat / 65536) (ws.take dieWalks) with
  | none => .next s
  | some (i, m) =>
    match (s.space asn).root with
    | none => .next { s with walks := put s.walks die (ws.eraseIdx i) }
    | some r =>
      let t := (s.walkTrips die va.toNat r)
      let t := { t with walks := put t.walks die (ws.eraseIdx i) }
      match s.walk (some asn) va.toNat with
      | .ok e _ =>
        let l := s.leafLevel va.toNat 3 r
        .next (t.tlbFill die m.cores { asn := asn, page := va.toNat / 2 ^ levelShift l, level := l, pte := e })
      | .bad _ _ => .next t

/-! ### The cellar engine, bins and yields -/

/-- The partitions of a core whose oldest frame wait cannot be served, in ascending number (LOG 141). -/
def State.shortParts (s : State) (c : Nat) : List Nat :=
  (List.range 16).filter fun p => match findIdx (fun w => s.waitPart w == p) (s.core c).line with
    | some (_, w) => decide (s.freeRows c p < s.rowsOf w)
    | none => false

/-- The oldest frame wait of some group on a study core waits for rows of the study core (R342). -/
def State.studyShort (s : State) (c : Nat) : Bool :=
  (s.study c).slots.any fun e =>
    match findIdx (fun w => s.waitPart w == s.partOf (s.gridOf (s.grp e.2))) (s.core (coreOf e.2)).line with
    | some (_, w) => w.grp == e.2 && !s.studyGives w
    | none => false

/-- The engine of a study core has written a frame to the home core's cellar (R342): it counts as spilled at home, and its histories are discarded
(R353). -/
def State.spillAway (s : State) (c : Nat) : State :=
  if !s.studyShort c then s
  else match s.nextAway c with
  | none => s
  | some (k, d) =>
    let homes := (s.study c).slots.map fun e => coreOf e.2
    -- the argument rows that the frame above shares stay there
    let keeps (r : Nat) : Bool := decide (r < 64) && decide (((s.grp k).frameAt d).nv - (s.grp k).sharedAbove d ≤ r)
    let gone (d' r : Nat) : Bool := if r < 64 then
        let p := aliasRow (s.grp k).frames d' r 32
        p.1 == d && !keeps p.2
      else d' == d
    let s := (s.dropHist k gone).upd k fun g => g.setFrameAt d { g.frameAt d with away := false, spilled := true }
    homes.foldl (fun s h => s.settle h) s

/-- CELLAR_SPILL_ACK (R185, R186): the next frame of the engine's order is in the cellar, and its rows return to the pool. Of several partitions whose
oldest wait is short, the engine serves the first for which it has a frame to take (LOG 141). -/
def execCellarSpillAck (c : Nat) (s : State) : Out :=
  if 48 ≤ c % 64 then .next (s.spillAway c)
  else if s.shortParts c = [] then .next s
  else match (s.shortParts c).findSome? fun p => s.nextSpill c p true with
    | none => .next (s.settle c)
    | some (k, d) => .next ((s.upd k fun g => g.setFrameAt d { g.frameAt d with spilled := true }).settle c)

/-- REFILL_COMPLETE (R188): the last row of a refill has landed. -/
def execRefillComplete (k : Nat) (s : State) : Out :=
  let g := s.grp k
  let inLine := (s.core (coreOf k)).line.any fun w => w.grp == k && match w.act with
    | .bin _ => false
    | _ => true
  if inLine || g.top.spilled then .next s else .next (s.setGrp k (g.endWaits (· == .frame)))

/-- REFORM_BIN_TIMEOUT (R45): 512 cycles have passed since a bin's first lane entered. -/
def execReformBinTimeout (t bin : Nat) (s : State) : Out :=
  let tm := s.team t
  if bin < tm.bins.length then .next (s.setTeam t { tm with bins := tm.bins.zipIdx.map fun b => if b.2 = bin then { b.1 with due := true } else b.1 })
  else .next s

/-- REFORM_BIN_LEAVE (R45, R46): the first due bin of a team asks for the rows of its frame chain, and leaves when it has them. -/
def execReformBinLeave (t : Nat) (s : State) : Out :=
  let tm := s.team t
  let waits := (s.core tm.core).line.any fun w => w.act == .bin t
  match firstDue tm.bins, s.freeNumber t with
  | some (_, b), some n =>
    if waits || !tm.live || tm.pre == 2 then .next s
    else
      let rows := chainRows (binGroup b tm.ghosts n).frames
      .next ((s.frameWait ⟨tm.slots.headD 0, rows, .bin t⟩).settle tm.core)
  | _, _ => .next s

/-- A wait at `yield`. -/
def Wait.yields : Wait → Bool
  | .yield _ => true
  | _ => false

/-- YIELD_TIMEOUT (R190): the wait of a `yield` ends after its time. -/
def execYieldTimeout (k : Nat) (s : State) : Out := .next (s.upd k fun g => g.endWaits Wait.yields)

/-! ### Parks -/

/-- The system-call record of a parked `trap` (R192). -/
def State.svcRecord (s : State) (k : Nat) (p : Park) (code : BitVec 16) : List Byte :=
  let g := s.grp k
  let c := coreOf k
  let arg (i : Nat) : List Byte := leBytes 8 (get {} (g.frameAt p.depth).sc i).v.toNat
  leBytes 2 code.toNat ++ leBytes 1 (dieOf c) ++ leBytes 1 (c % 64) ++ leBytes 1 (slotOf k) ++ leBytes 1 (if g.regs.mode then 1 else 0) ++
  leBytes 2 (get 0 (s.core c).serials (slotOf k)).toNat ++ leBytes 4 (s.gridOf g).num.toNat ++ leBytes 4 (s.team g.team).lin ++
  leBytes 8 p.pc.toNat ++ leBytes 8 p.mask.toNat ++ arg 0 ++ arg 1 ++ arg 2 ++ arg 3

/-- TRAP_RECORD_WRITE (R191, R192, R375): the store FIFO of a group parked at `trap` has drained, and its record goes to the service ring. -/
def execTrapRecordWrite (k : Nat) (s : State) : Out :=
  let g := s.grp k
  match g.park with
  | some p =>
    match p.why with
    | .trap code =>
      if p.sent || g.mio.fifo != [] then .next s
      else
        let b := s.svcRecord k p code
        let s := s.msg (dieOf (coreOf k)) 4
        let (n, s) := s.takeSerial k
        let s := s.setGrp k { g with park := some { p with sent := true, serial := n, loc := k } }
        .next (s.svcPush (s.gridOf g).vf b)
    | _ => .next s
  | none => .next s

/-- A handler's abort of a team that is guarded and unpublished, and has a rollback left, rolls it back: nobody answers it (R407, R440, LOG 134). -/
def State.abortsBack (s : State) (k : Nat) (p : Park) : Bool :=
  p.why == .abort && s.guardOpen (s.grp k).team && decide ((s.team (s.grp k).team).guard.tries < 16)

/-- The record of a parked fault (R397, R399, R400, R420): flag [2] says that the group parked on a study core, wherever it is now (R422). -/
def State.parkRecord (s : State) (k : Nat) (p : Park) : Rec :=
  match p.why with
  | .escal _ => s.recOf k 1 p.flt p.pc (s.flagsAt k p.away true true true)
  | .abort => s.recOf k 1 p.flt p.pc (s.flagsAt k p.away true true (!s.abortsBack k p))
  | _ => s.recOf k p.cls p.flt p.pc (s.flagsAt k p.away (p.cls == 1) false true)

/-- FAULT_PARK (R400, R420): the store FIFO of a parked group has drained, and its record goes to the home queue; the rollback that a handler's abort
asks for follows with its class 3 record (R407). -/
def execFaultPark (k : Nat) (s : State) : Out :=
  let g := s.grp k
  match g.park with
  | some p =>
    match p.why with
    | .trap _ => .next s
    | _ =>
      if p.sent || g.mio.fifo != [] then .next s
      else
        let s := s.msg (dieOf (coreOf k)) 4
        let r := s.parkRecord k p
        if s.abortsBack k p then .next ((s.homePush g.grid r).abortGroup k p)
        else
          let (n, s) := s.takeSerial k
          let s := s.setGrp k { g with park := some { p with sent := true, serial := n, loc := k } }
          .next (s.homePush g.grid r)
  | none => .next s

/-! ### Work queues -/

/-- The targets of a queue's record slot in the address space of its VF (R374). -/
def State.wqSlot (s : State) (vf : Nat) (q : Wq) (n : Nat) (write : Bool) : Option (List Acc) :=
  match s.fwBytes (s.asnOf vf) write (q.base + 64 * (n % q.size)) 64 with
  | .ok as => some as
  | .error _ => none

/-- Deliver bytes to a team's own scratchpad with their poison, undo-logged (R49, R438). -/
def State.scrDeliver (s : State) (t off : Nat) (bs : List (Byte × Bool)) : State :=
  let s := s.logScr t off
  let tm := (s.team t).scrWrite off (bs.map Prod.fst) fun w => decide (off / 4 ≤ w) && decide (w < (off + bs.length) / 4)
  let bad := (bs.zipIdx.filter fun b => b.1.2).map fun b => (off + b.2) / 4
  s.setTeam t { tm with scrPx := bad.foldl (fun p w => insertNat w p) tm.scrPx }

/-- Accesses of a group before a place in its program order are open: loads, copies and takes, the store FIFO, and the acquires of waiting lanes (R219,
R286, R288). -/
def Group.openBefore (g : Group) (seq : Nat) : Bool :=
  g.mio.loads.any (fun l => decide (l.seq < seq)) || g.mio.fifo.any (fun e => decide (e.seq < seq)) ||
    (g.mio.pans.any fun p => decide (p.seq < seq) && p.dst.isSome) || g.acqOpen seq

/-- The front end on the hub die reaches a slot of a ring at the home of its line (R23, R374). -/
def State.slotTrip (s : State) (as : List Acc) : State :=
  match (as.headD ⟨0, 0, .zero, 1⟩).tgt with
  | .dev pa ms => s.lineTrip 4 pa ms
  | .host _ _ => { s.hostTrip 4 with fresh := s.fresh + 1 }
  | _ => s
/-- The targets of a ring slot that the front end can reach now: not across a link that carries nothing (R462). -/
def State.slotNow (s : State) (as : Option (List Acc)) : Option (List Acc) := as.filter fun l => !(s.linkHeld && hostIn l)

/-- WPOP_DELIVER (R251, R252, R374): the oldest record goes to the first group that sleeps at `wpop`, once the accesses before that are over (R286, LOG
109); a ring slot that no page reaches delivers nothing. -/
def execWpopDeliver (vf w : Nat) (s : State) : Out :=
  match s.wq vf w with
  | none => .next s
  | some q =>
    match findIdx (fun (r : WqReq) => !r.push) q.line with
    | none => .next s
    | some (i, r) =>
      match if q.head < q.tail && !(s.grp r.grp).openBefore r.seq && s.wqBefore r.grp r.seq == [] then s.slotNow (s.wqSlot vf q q.head false) else none with
      | none => .next s
      | some as =>
        let fails := s.fwFails as
        let s := s.slotTrip as
        let bs := as.map fun a => let b := s.directByte a 0; (b.1, b.2 || fails)
        let s := if fails then
            s.homePush (s.grp r.grp).grid (s.recOf r.grp 2 (flt 0x0D06 r.mask (q.base + 64 * (q.head % q.size)) 64) 0 (s.groupFlags r.grp false false false))
          else s
        let s := s.setWq vf w { q with head := q.head + 1, line := q.line.eraseIdx i }
        let s := s.msg 4 (dieOf (coreOf r.grp))
        let s := s.scrDeliver (s.grp r.grp).team r.off bs
        .next (((s.upd r.grp fun g => g.endOne (.wq w, r.mask)).acquireBy r.grp .sys).progress (s.grp r.grp).grid)

/-- Append a record to a queue at its home, with poison where its bytes have it (R374, R438). -/
def State.wqPut (s : State) (vf w : Nat) (q : Wq) (as : List Acc) (bs : List Byte) (px : List Nat) : State :=
  let s := (s.slotTrip as).fwPut (s.asnOf vf) as bs
  let mark (s : State) (i : Nat) : State := match (as.getD i ⟨0, 0, .zero, 1⟩).tgt with
    | .dev pa _ => s.setDevPx (pa / 32) true
    | _ => s
  (px.foldl mark s).setWq vf w { q with tail := q.tail + 1 }

/-- WPUSH_APPEND (R251, R252, R374): when the queue has room and the first append in its line is a `wpush`, its 64 bytes are read and appended, once what
its group has open from before is over (R286, R288); an APPEND of the host that waits there comes first. -/
def execWpushAppend (vf w : Nat) (s : State) : Out :=
  match s.wq vf w with
  | none => .next s
  | some q =>
    match findIdx (fun (r : WqReq) => r.push) q.line with
    | none => .next s
    | some (i, r) =>
      match if q.tail - q.head < q.size && r.cmd.isNone && s.wqBefore r.grp r.seq == [] && !(s.grp r.grp).acqOpen r.seq
          then s.slotNow (s.wqSlot vf q q.tail true) else none with
      | none => .next s
      | some as =>
        let s := s.msg (dieOf (coreOf r.grp)) 4
        let tm := s.team (s.grp r.grp).team
        let px := (List.range 64).filter fun i => tm.scrPx.contains ((r.off + i) / 4)
        let s := s.wqPut vf w { q with line := q.line.eraseIdx i } as (tm.scr.readN r.off 64) px
        let s := s.msg 4 (dieOf (coreOf r.grp))
        .next ((s.upd r.grp fun g => g.endOne (.wq w, r.mask)).progress (s.grp r.grp).grid)

/-! ### Messages -/

/-- MESSAGE_RECEIVE (R24). -/
def execMessageReceive (die : Nat) (stamp : W64) (s : State) : Out :=
  if 4 < die then .next s else .next (s.stampIn die stamp)

end Sys2Proof.Machine
end

