-- ==== Sys2Proof/Machine/Jobs.lean ====
section
/-! DEFINITION. The engines: jobs (R235 to R250, R385 to R387, R417, R438, R446) and the matrix engine (R255 to R259). -/

namespace Sys2Proof.Machine

/-! ### Ranges, lines and edges -/

/-- The physical stretches of a global range of a card, page by page: host memory or not, first address, length. -/
def State.rangeSegs (s : State) (t : Nat) (c : List Byte) (off : Nat) : List (Bool × Nat × Nat) :=
  let lo := cd c off
  let hi := lo + cd c (off + 8)
  if hi = lo ∨ 2 ^ 47 ≤ lo then []
  else (List.range ((hi - 1) / 65536 + 1 - lo / 65536)).filterMap fun i =>
    let a := max lo ((lo / 65536 + i) * 65536)
    let z := min hi ((lo / 65536 + i + 1) * 65536)
    match s.walk (s.asnOf (s.grid (s.team t).grid).vf) a with
    | .ok e pa => some (pteTgt e != 0, pa, z - a)
    | .bad _ _ => none

/-- A line meets some stretch. -/
def segsMeet (segs : List (Bool × Nat × Nat)) (k : Nat) : Bool :=
  segs.any fun g => g.1 == lineHost k && decide (lineAddr k < g.2.1 + g.2.2) && decide (g.2.1 < lineAddr k + 128)

/-- Write back the lines of a core's L1 and its die's visitor lines that meet some stretches, and invalidate them when `inval` (R242, R243). -/
def State.flushSegs (s : State) (c : Nat) (fused inval : Bool) (segs : List (Bool × Nat × Nat)) : State :=
  let s := (l1Cores fused c).foldl (fun s cc =>
    let ks := ((s.core cc).l1.map Prod.fst).filter (segsMeet segs)
    let s := ks.foldl (fun s k => s.l1Back cc k) s
    if inval then
      let co := s.core cc
      s.setCore cc { co with l1 := (co.l1.map fun e => if segsMeet segs e.1 then (e.1, e.2.invalidate) else e).filter fun e => e.2.bytes != [] }
    else s) s
  let die := dieOf c
  let ks := ((s.die die).visitors.map Prod.fst).filter (segsMeet segs)
  let s := ks.foldl (fun s k => s.visitorHome die k) s
  if inval then
    let d := s.die die
    s.setDie die { d with visitors := (d.visitors.map fun e => if segsMeet segs e.1 then (e.1, e.2.invalidate) else e).filter fun e => e.2.bytes != [] }
  else s

/-! ### Records and ends of jobs -/

/-- An entry of a core's job table. -/
def State.job (s : State) (c i : Nat) : Option Job := get? (s.core c).jobs i
/-- Replace it. -/
def State.setJob (s : State) (c i : Nat) (j : Job) : State := s.setCore c { s.core c with jobs := put (s.core c).jobs i j }

/-- The record of a job (R397, R446): slot 128 + entry, origin engine. -/
def State.jobRec (s : State) (c i : Nat) (j : Job) (kind addr aux : Nat) (answer : Bool) : Rec :=
  let gr := s.grid j.grid
  { cls := 2, kind := kind, die := dieOf c, core := c % 64, slot := 128 + i, flags := flagBits false false false (s.guardOpen j.team) false answer 1
    grid := gr.num.toNat, team := (s.team j.team).lin, pc := j.pc.toNat, addr := addr, aux := aux, count := (s.die (dieOf c)).count.toNat
    serial := (get 0 (s.core c).serials (128 + i)).toNat, vf := gr.vf, part := s.partOf gr }

/-- A job ends under R417: its successors of the team are cancelled with it, a record is written, and the team is contained. -/
def State.jobFail (s : State) (c i : Nat) (j : Job) (kind addr aux : Nat) : State :=
  let r := s.cancelJobs c [i]
  let rc := s.jobRec c i j kind addr (aux + (r.2 - 1) * 2 ^ 32) false
  let s := r.1.homePush j.grid rc
  (s.containTeam j.team 1 rc).enqResume c

/-- Why a job stops: a page that does not translate (address, width and access of R411, level, reason), a footprint (address, place), a page that refuses
(address, byte offset in the job). -/
inductive JobStop where
  | trans (va width acc level reason : Nat)
  | foot (addr pos : Nat)
  | page (addr pos : Nat)
  deriving DecidableEq, Repr

/-- A translation fault that stops a job at a chunk (R446): a record that awaits an answer takes the entry's serial. -/
def State.jobTransFirst (s : State) (c i : Nat) (j : Job) (chunk va aux : Nat) : State :=
  let r := s.jobRec c i j 0x0703 va aux true
  let n := get 0 (s.core c).serials (128 + i)
  let s := s.setJob c i { j with st := .faulted, stop := some (chunk, false), serial := n.toNat, loc := 64 * c + i }
  let co := s.core c
  (s.setCore c { co with serials := put co.serials (128 + i) (n + 1) }).homePush j.grid r

/-- A translation fault of a job (R446); a second one in a chunk after a retry ends it with kind 0x0704. -/
def State.jobTrans (s : State) (c i : Nat) (j : Job) (chunk width acc va level reason : Nat) : State :=
  let aux := width + acc * 256 + level * 1024 + reason * 8192
  if j.stop = some (chunk, true) then s.jobFail c i j 0x0704 va aux else s.jobTransFirst c i j chunk va aux

/-- A job stops for a reason. -/
def State.jobStops (s : State) (c i : Nat) (j : Job) (chunk : Nat) : JobStop → State
  | .trans va width acc l r => s.jobTrans c i j chunk width acc va l r
  | .foot a p => s.jobFail c i j 0x0909 a p
  | .page a p => s.jobFail c i j 0x090B a p

/-! ### Moving bytes -/

/-- The target of one byte of a job, of an access of `w` bytes (R238, R240, R411, R446). -/
def State.jobByte (s : State) (c t va pos w : Nat) (write : Bool) : Except JobStop Acc :=
  if va < 2 ^ 47 then
    match s.xlate c (s.asnOf (s.grid (s.team t).grid).vf) va with
    | .bad l r => .error (.trans va w (if write then 1 else 0) l r)
    | .ok e pa =>
      if pteP e || (write && !pteW e) then .error (.page va pos)
      else .ok ⟨0, va, if pteTgt e ≠ 0 then .host pa (pteTgt e == 2) else .dev pa (pteMs e), 1⟩
  else match s.jobPlace t va with
    | some (2, q, off, _) => .ok ⟨0, va, .scr q off, 1⟩
    | some (_, n, off, _) => .ok ⟨0, va, .par (n / 4) (n % 4) off, 1⟩
    | none => .error (.foot va pos)

/-- The targets of an element's bytes, the first at byte `pos` of the job (R410). -/
def State.jobBytes (s : State) (c t va pos w : Nat) (write : Bool) : Nat → Except JobStop (List Acc)
  | 0 => .ok []
  | n + 1 => match s.jobByte c t va pos w write with
    | .error e => .error e
    | .ok a => match s.jobBytes c t (va + 1) (pos + 1) w write n with
      | .error e => .error e
      | .ok l => .ok (a :: l)

/-- The protected unit of a place (R434): region, number, unit. -/
def unitAt (x : Nat × Nat × Nat) : Nat × Nat × Nat := (x.1, x.2.1, if x.1 = 2 then x.2.2 / 4 else x.2.2 / 32)
/-- The unit of an access of one byte. -/
def unitOf (a : Acc) : Nat × Nat × Nat := unitAt (a.tgt.at_ 0)

/-- Poison the unit of a target (R435, R438). -/
def State.poisonUnit (s : State) (a : Acc) : State :=
  match a.tgt with
  | .dev pa _ => s.setDevPx (pa / 32) true
  | .scr q off => s.setTeam q { s.team q with scrPx := insertNat (off / 4) (s.team q).scrPx }
  | .par g d off => { s with mem := { s.mem with parPx := (g, d, off / 32) :: s.mem.parPx.filter (· != (g, d, off / 32)) } }
  | _ => s

/-- A job writes one byte at its home, undo-logged and marked dirty (R75, R250, R322). -/
def State.jobPut (s : State) (t c : Nat) (a : Acc) (b : Byte) (all : List (Nat × Nat × Nat)) : State :=
  let asn := s.asnOf (s.grid (s.team t).grid).vf
  match a.tgt with
  | .dev pa ms => (((s.logLine t c pa a.va ms).directWrite a [b] all).markDirty asn a.va)
  | .host _ _ => (s.directWrite a [b] all).markDirty asn a.va
  | .scr q off => (if q = t then s.logScr t off else s).directWrite a [b] all
  | _ => s.directWrite a [b] all

/-- What a job has done: the state, the units poisoned, why it stopped, and the dies that its bytes came from or went to, 4 for the host. -/
structure Moved where
  s : State
  px : List (Nat × Nat × Nat)
  stop : Option JobStop
  far : List Nat := []
  /-- The lines that it has reached, by key; those of device memory have taken their places in the home L2s. -/
  lines : List (Nat × Bool) := []
  /-- The core whose TLB its accesses use, and their address space (R81). -/
  tlb : Option (Nat × Option Nat) := none
  /-- The bytes written since their unit last received a poisoned one. -/
  sound : List (Nat × Nat × Nat) := []
  /-- The first address that the host answered with an error completion. -/
  failed : Option Nat := none

/-- The die that an access of an engine reaches, 4 for the host. -/
def Acc.far (a : Acc) : List Nat :=
  match a.tgt with
  | .dev pa _ => [homeDie pa]
  | .host _ _ => [4]
  | _ => []
/-- An engine of a die reaches other dies and the host: one message and its answer for each (R23, R24, LOG 110). -/
def State.reach (s : State) (die : Nat) (far : List Nat) : State :=
  far.foldl (fun s d => if d = 4 then s.hostTrip die else (s.msg die d).msg d die) s

/-- The line of a translated target: its key, and whether its page is memory-side. -/
def Tgt.lineOf : Tgt → Option (Nat × Bool)
  | .dev pa ms => some (lineKey false pa, ms)
  | .host h _ => some (lineKey true h, false)
  | _ => none
/-- The accesses of an element reach their homes: once in a chunk each line has its translation, for which a miss starts a walk (R81), and takes its place
there (R72, R75). -/
def Moved.use (m : Moved) (as : List Acc) : Moved :=
  as.foldl (fun m a =>
    let m := { m with far := a.far.foldl (fun l d => insertNat d l) m.far }
    match a.tgt.lineOf with
    | none => m
    | some l =>
      if m.lines.contains l then m
      else
        let s := match m.tlb with
          | some (c, asn) => m.s.miss c asn a.va
          | none => m.s
        { m with s := if lineHost l.1 then s else s.homeRoom (lineAddr l.1) l.2, lines := l :: m.lines }) m
/-- What an engine of a core is about to do for a team: its accesses use the core's TLB (R81, R238). -/
def State.moved (s : State) (c t : Nat) (px : List (Nat × Nat × Nat)) : Moved :=
  { s := s, px := px, stop := none, tlb := some (c, s.asnOf (s.grid (s.team t).grid).vf) }

/-- Read the bytes of an access of a job with their poison; the host may answer with an error completion, which poisons what it gives (R438, LOG 17). -/
def Moved.read (m : Moved) (as : List Acc) : Moved × List (Byte × Bool) :=
  let bs := as.map fun a => m.s.directByte a 0
  match as.find? fun a => a.far == [4] with
  | none => (m, bs)
  | some h =>
    let fails := Config.hostFails m.s.fresh
    ({ m with s := { m.s with fresh := m.s.fresh + 1 }, failed := if fails && m.failed.isNone then some h.va else m.failed },
     (as.zip bs).map fun x => (x.2.1, x.2.2 || (fails && x.1.far == [4])))

/-- Write one byte of a job: a unit that has received a poisoned byte is poisoned, and one of which every byte has been replaced since is not (R435,
R438). -/
def Moved.write (m : Moved) (t c : Nat) (a : Acc) (b : Byte) (bad : Bool) : Moved :=
  if bad then
    { m with s := (m.s.jobPut t c a b []).poisonUnit a, sound := m.sound.filter fun x => unitAt x != unitOf a
             px := if m.px.contains (unitOf a) then m.px else m.px ++ [unitOf a] }
  else
    let sound := a.tgt.at_ 0 :: m.sound
    { m with s := m.s.jobPut t c a b sound, sound := sound }

/-- One element of a job: its source or its fill byte, its destination, its place in the list and in the bytes of the job, and whether an index was
poisoned. -/
structure Elem where
  src : Option Nat
  fill : Byte
  dst : Nat
  pos : Nat
  byte : Nat
  px : Bool
  /-- It leaves its range: the address that does. -/
  foot : Option Nat

/-- Move one element of `z` bytes (R238, R244 to R246, R438). -/
def Moved.elem (m : Moved) (c t z : Nat) (e : Elem) : Moved :=
  if m.stop.isSome then m
  else match e.foot with
  | some a => { m with stop := some (.foot a e.pos) }
  | none =>
    let src : Except JobStop (List Acc) := match e.src with
      | some a => m.s.jobBytes c t a e.byte z false z
      | none => .ok []
    match src, m.s.jobBytes c t e.dst e.byte z true z with
    | .error r, _ => { m with stop := some r }
    | _, .error r => { m with stop := some r }
    | .ok as, .ok ds =>
      let r := (m.use (as ++ ds)).read as
      let bs := if e.src.isNone then [(e.fill, false)] else r.2
      (ds.zip bs).foldl (fun m p => m.write t c p.1 p.2.1 (p.2.2 || e.px)) r.1

/-- Size of an element of a job. -/
def cardElem (c : List Byte) : Nat := if cardByte c 0 = 2 ∨ cardByte c 0 = 3 then cardZ c else 1

/-- Element n of a job, with what reading its index leaves (R244 to R246): an index outside the read range of indices cannot occur (R237). -/
def Moved.elemOf (m : Moved) (c t : Nat) (k : List Byte) (n : Nat) : Moved × Except JobStop Elem :=
  match cardByte k 0 with
  | 1 =>
    let rb := fieldAt k 80 4
    (m, .ok ⟨some (cd k 16 + n / rb * cd k 88 + n % rb), 0, cd k 48 + n / rb * cd k 96 + n % rb, n, n, false, none⟩)
  | 4 => (m, .ok ⟨none, BitVec.ofNat 8 (cardByte k (80 + n % 16)), cd k 48 + n, n, n, false, none⟩)
  | op =>
    let z := cardZ k
    match m.s.jobBytes c t (cd k 32 + 4 * n) (n * z) 4 false 4 with
    | .error e => (m, .error e)
    | .ok as =>
      let r := (m.use as).read as
      let i := leNat (r.2.map Prod.fst)
      let bad := r.2.any Prod.snd
      (r.1, .ok (if op = 2 then ⟨some (cd k 16 + i * z), 0, cd k 48 + n * z, n, n * z, bad, if cd k 24 < i * z + z then some (cd k 16 + i * z) else none⟩
        else ⟨some (cd k 16 + n * z), 0, cd k 48 + i * z, n, n * z, bad, if cd k 56 < i * z + z then some (cd k 48 + i * z) else none⟩))

/-- Chunks of a job (R248). -/
def cardChunks (k : List Byte) : Nat := (cardMoved k + 65535) / 65536
/-- The elements of a chunk: first and count. -/
def chunkElems (k : List Byte) (chunk : Nat) : Nat × Nat :=
  let z := cardElem k
  (chunk * (65536 / z), (min ((chunk + 1) * 65536) (cardMoved k) - chunk * 65536) / z)

/-- Move the elements of a chunk in ascending order. -/
def State.moveChunk (s : State) (c t : Nat) (k : List Byte) (chunk : Nat) (px : List (Nat × Nat × Nat)) : Moved :=
  let r := chunkElems k chunk
  (List.range r.2).foldl (fun m i => if m.stop.isSome then m else match m.elemOf c t k (r.1 + i) with
    | (m, .error e) => { m with stop := some e }
    | (m, .ok e) => m.elem c t (cardElem k) e) (s.moved c t px)

/-! ### Sparse index destinations -/

/-- Where entry n of a copy that fills a sparse index queue comes from, byte by byte (R244). -/
def State.xqBytes (s : State) (c t : Nat) (k : List Byte) (n : Nat) : Except JobStop (List Acc) :=
  let rb := fieldAt k 80 4
  (List.range 256).foldl (fun acc b => match acc with
    | .error e => .error e
    | .ok l =>
      let x := 256 * n + b
      match s.jobByte c t (cd k 16 + x / rb * cd k 88 + x % rb) x 1 false with
      | .error e => .error e
      | .ok a => .ok (l ++ [a])) (.ok [])

/-- Append the entries of a chunk that are not yet appended, while the queue has room (R244, R248, R254): what it has done, and the entries appended. -/
def Moved.append (m : Moved) (c t : Nat) (k : List Byte) (step last : Nat) : Nat → Moved × Nat
  | 0 => (m, step)
  | n + 1 =>
    let q := cardByte k 3 % 4
    let hc := (m.s.team t).xqState q
    if last ≤ step ∨ 8 ≤ hc.2 then (m, step)
    else match m.s.xqBytes c t k step with
    | .error e => ({ m with stop := some e }, step)
    | .ok as =>
      let r := (m.use as).read as
      let ws := (List.range 64).map fun i =>
        let w := (r.2.drop (4 * i)).take 4
        (BitVec.ofNat 32 (leNat (w.map Prod.fst)), w.any Prod.snd)
      let w := (m.s.grid (m.s.team t).grid).xqOff q (hc.1 + hc.2) / 4
      let bad := (ws.zipIdx.filter fun x => x.1.2).map fun x => (2, t, w + x.2)
      Moved.append { r.1 with s := r.1.s.xqAppend t q ws, px := r.1.px ++ bad.filter fun u => !r.1.px.contains u } c t k (step + 1) last n

/-! ### The copy engine's events -/

/-- The engine of a job. -/
def Job.engine (j : Job) : Engine := if cardByte j.card 0 = 5 then .collective else .copy
/-- The grid of a job has stopped that engine (R55). -/
def State.engineStopped (s : State) (j : Job) : Bool := (s.grid j.grid).run.acks.contains j.engine

/-- Record the read ranges of a job in its team's read set (R250, R317). -/
def State.recordRange (s : State) (t : Nat) (k : List Byte) (off : Nat) : State :=
  let tm := s.team t
  let n := cd k (off + 8)
  let lo := cd k off
  if !(s.grid tm.grid).recordable || n = 0 || decide (2 ^ 47 ≤ lo) then s
  else (List.range ((lo + n - 1) / 4096 + 1 - lo / 4096)).foldl (fun s i =>
    let va := max lo ((lo / 4096 + i) * 4096)
    let tgt : Tgt := match s.walk (s.asnOf (s.grid tm.grid).vf) va with
      | .ok e pa => if pteTgt e ≠ 0 then .host pa (pteTgt e == 2) else .dev pa (pteMs e)
      | .bad _ _ => .dev 0 false
    s.recordRead t ⟨0, va, tgt, 1⟩) s

/-- The first field of a collective descriptor that breaks R385; a port that is out is refused too. -/
def descBad (ports : List Nat) (d : List Byte) : Option Nat :=
  let ring := cardByte d 0 == 1
  let nchild := cardByte d 1
  let rank := fieldAt d 4 2
  let n := fieldAt d 2 2
  let port (i : Nat) : Bool := decide (cardByte d i < 18) && ports.contains (cardByte d i)
  firstOff ([(cardByte d 0 != 1 && cardByte d 0 != 2, 0), (if ring then nchild != 0 else decide (4 < nchild), 1),
    (decide (n < 2) || decide (4096 < n), 2), (decide (n ≤ rank), 4),
    (if !ring && rank == 0 then cardByte d 6 != 255 else !port 6, 6), (if ring then !port 7 else cardByte d 7 != 0, 7)] ++
    (List.range 4).map (fun c => (if decide (c < nchild) then !port (8 + c) else cardByte d (8 + c) != 255, 8 + c)) ++
    [(someByte d 12 16, 12), (someByte d 24 64, 24)])

/-- The record of an access of a job that the host answered with an error completion: the first of the chunk (R438, LOG 17). -/
def Moved.hostRec (m : Moved) (c i : Nat) (j : Job) : Moved :=
  match m.failed with
  | some va => { m with s := m.s.homePush j.grid (m.s.jobRec c i j 0x0D06 va (cardElem j.card) false) }
  | none => m

/-- A collective reads its descriptor when it starts (R385): 64 bytes of global memory. It is chunk 0 of the job (LOG 124). -/
def State.collStart (s : State) (c i : Nat) (j : Job) : State :=
  let a := fieldAt j.card 80 8
  if a % 64 ≠ 0 ∨ 2 ^ 47 ≤ a then s.jobFail c i j 0x090A a 0
  else match s.jobBytes c j.team a 0 64 false 64 with
  | .error (.foot _ _) => s.jobFail c i j 0x090A a 0
  | .error e => s.jobStops c i j 0 e
  | .ok as =>
    if s.linkHeld && hostIn as then s else
    let r := ((s.moved c j.team []).use as).read as
    let s := (r.1.hostRec c i j).s.reach (dieOf c) r.1.far
    let d := r.2.map Prod.fst
    match descBad s.mod2.ports d with
    | some o => s.jobFail c i j 0x090A a o
    | none => s.setJob c i { j with st := .running, desc := d, buf := [], step := 0 }

/-- A job is ready (R235, R241, R242): no predecessor is left, and its group's earlier stores to its ranges have drained. -/
def State.jobReady (s : State) (j : Job) : Bool := (j.st == .ready || (j.st == .waiting && j.preds == [])) && !s.jobHeld j
/-- The ready job of an engine that is taken first (R235): the oldest. -/
def State.takesFirst (s : State) (c i : Nat) (j : Job) : Bool :=
  (s.core c).jobs.all fun e => e.1 == i || !s.jobReady e.2 || e.2.engine != j.engine || decide (j.born ≤ e.2.born)

/-- Jobs of the copy engine of a core that run: one that a translation fault has stopped runs still (R235, R446). -/
def State.copiesRun (s : State) (c : Nat) : Nat :=
  ((s.core c).jobs.filter fun e => (e.2.st == .running || e.2.st == .faulted) && e.2.engine == .copy).length

/-- JOB_START (R235, R242, R385): an engine takes the oldest ready job. The collective engine takes those of each core in that core's order, and the spec
gives no limit to how many of them run at once (LOG 146). -/
def execJobStart (c i : Nat) (s : State) : Out :=
  match s.job c i with
  | none => .next s
  | some j =>
    if !s.jobReady j || s.engineStopped j || !s.takesFirst c i j || (j.engine == .copy && decide (16 ≤ s.copiesRun c)) then .next s
    else
      let fused := (s.grid j.grid).fused
      let s := s.flushSegs c fused false ([16, 32].flatMap fun o => s.rangeSegs j.team j.card o)
      let s := s.flushSegs c fused true ([48, 64].flatMap fun o => s.rangeSegs j.team j.card o)
      let s := [16, 32].foldl (fun s o => s.recordRange j.team j.card o) s
      if j.engine == .collective then .next (s.collStart c i j)
      else .next (s.setJob c i { j with st := if cardChunks j.card = 0 then .completing else .running })

/-- The running job that the copy engine serves next, one chunk each in turn (R235): the one that entered after the last served, or the first. -/
def State.serves (s : State) (c : Nat) : Option Nat :=
  let co := s.core c
  (leastBy (fun e => if e.2.born ≤ co.turn then e.2.born + co.born else e.2.born)
    (co.jobs.filter fun e => e.2.st == .running && e.2.engine == .copy && !s.engineStopped e.2)).map Prod.fst

/-- JOB_CHUNK_DONE (R235, R238, R244 to R248, R417, R438, R446): the lowest chunk whose bit is clear, of the job whose turn it is. A chunk that waits for
room in a sparse index queue lets the turn pass (LOG 111). -/
def execJobChunkDone (c i : Nat) (s : State) : Out :=
  match s.job c i with
  | none => .next s
  | some j =>
    if s.serves c != some i then .next s
    else
    let s := s.setCore c { s.core c with turn := j.born }
    match (List.range (cardChunks j.card)).find? fun n => !j.done.contains n with
    | none => .next (s.setJob c i { j with st := .completing })
    | some n =>
      let xq := cardXqd j.card
      let last := min ((n + 1) * 256) (cardMoved j.card / 256)
      let r : Moved × Nat := if xq then Moved.append (s.moved c j.team j.px) c j.team j.card j.step last 8
        else (s.moveChunk c j.team j.card n j.px, j.step)
      let r := (r.1.hostRec c i j, r.2)
      if s.linkHeld && r.1.far.contains 4 then .next s
      else match r.1.stop with
      | some (.trans va w a l e) =>
        let s' := if xq then r.1.s else s
        .next (s'.jobTrans c i { j with step := r.2, px := if xq then r.1.px else j.px } n w a va l e)
      | some e => .next (r.1.s.jobStops c i { j with px := r.1.px } n e)
      | none =>
        let r : Moved × Nat := ({ r.1 with s := (r.1.s.reach (dieOf c) r.1.far).progress j.grid }, r.2)
        if xq && decide (r.2 < last) then .next (r.1.s.setJob c i { j with step := r.2, px := r.1.px })
        else
          let done := insertNat n j.done
          .next (r.1.s.setJob c i { j with
            step := r.2, px := r.1.px, done := done, stop := none
            st := if done.length = cardChunks j.card then .completing else .running })

/-- JOB_COMPLETE (R38, R239, R241, R243, R438): invalidation, the semaphore, the record of moved poison, and the entry is free. -/
def execJobComplete (c i : Nat) (s : State) : Out :=
  match s.job c i with
  | none => .next s
  | some j =>
    if j.st != .completing then .next s
    else
      let s := s.flushSegs c (s.grid j.grid).fused true ([48, 64].flatMap fun o => s.rangeSegs j.team j.card o)
      let s := if cardSem j.card then
          let s := if 2 ≤ cardScope j.card then s.publish j.team else s
          s.semOp j.team (cardByte j.card 2) false (BitVec.ofNat 64 (cd j.card 8))
        else s
      let s := if j.px = [] then s else s.homePush j.grid (s.jobRec c i j 0x0D04 0 j.px.length false)
      let s := s.setCore c ((s.core c).removeJob i)
      let tm := s.team j.team
      let s := s.setTeam j.team { tm with guard := { tm.guard with jobs := tm.guard.jobs.filter (· != i) } }
      .next ((s.enqResume c).tryTeamRetire j.team)

/-! ### Collectives (R386) -/

/-- Combine of two elements (R386). -/
def combine (op z a b : Nat) : Nat :=
  match op with
  | 1 => fmt32.op .add a b 0
  | 2 => fmtB16.op .add a b 0
  | 3 => (a + b) % 2 ^ 32
  | 4 => fmt32.minmax true a b
  | 5 => fmt32.minmax false a b
  | _ => a % 256 ^ z

/-- The bytes of element e. -/
def elemAt (b : List Byte) (z e : Nat) : Nat := fieldAt b (e * z) z

/-- Combine, or replace by, received elements in a buffer: operation (0 replaces), size, first element, count, received on the left or not. -/
def combineAt (op z lo n : Nat) (left : Bool) (data buf : List Byte) : List Byte :=
  buf.take (lo * z) ++ ((List.range n).flatMap fun i =>
    let p := elemAt data z i
    let o := elemAt buf z (lo + i)
    leBytes z (if op = 0 then p else if left then combine op z p o else combine op z o p)) ++ buf.drop ((lo + n) * z)

/-- Segment s of a ring: first element and count. -/
def ringSeg (count n seg : Nat) : Nat × Nat :=
  let l := (count + n - 1) / n
  (min (seg * l) count, min ((seg + 1) * l) count - min (seg * l) count)

/-- Steps of a rank. -/
def collSteps (op : Nat) (d : List Byte) : Nat :=
  let n := fieldAt d 2 2
  let root := fieldAt d 4 2 == 0
  if cardByte d 0 = 1 then (if op = 0 then n else 2 * (n - 1))
  else (if op = 0 then 0 else cardByte d 1) + (if root then 0 else 1)

/-- One step of a rank on its buffer with what it receives. -/
def collOne (op z count step : Nat) (d data buf : List Byte) : List Byte :=
  let n := fieldAt d 2 2
  let r := fieldAt d 4 2
  if cardByte d 0 = 1 then
    if op = 0 then (if r = 0 then buf else combineAt 0 z (ringSeg count n step).1 (ringSeg count n step).2 true data buf)
    else if step < n - 1 then
      let g := ringSeg count n ((r + 2 * n - step - 2) % n)
      combineAt op z g.1 g.2 true data buf
    else
      let g := ringSeg count n ((r + 2 * n - (step - (n - 1)) - 1) % n)
      combineAt 0 z g.1 g.2 true data buf
  else if op ≠ 0 ∧ step < cardByte d 1 then combineAt op z 0 count false data buf
  else combineAt 0 z 0 count true data buf

/-- The local buffer of a collective with the places of poisoned bytes. Its descriptor, its source and its result are its chunk 0 (LOG 124). -/
def State.collRead (s : State) (c i : Nat) (j : Job) : State :=
  let n := cd j.card 96 * collZ j.card
  match s.jobBytes c j.team (cd j.card 16) 0 1 false n with
  | .error e => s.jobStops c i j 0 e
  | .ok as =>
    if s.linkHeld && hostIn as then s else
    let r := ((s.moved c j.team []).use as).read as
    let m := r.1.hostRec c i j
    (m.s.reach (dieOf c) m.far).setJob c i { j with buf := r.2.map Prod.fst, px := (r.2.zipIdx.filter fun b => b.1.2).map fun b => (9, 0, b.2) }

/-- The result of a collective goes to write range A (R387). It is chunk 0 of the job (LOG 124). -/
def State.collWrite (s : State) (c i : Nat) (j : Job) : State :=
  match s.jobBytes c j.team (cd j.card 48) 0 1 true j.buf.length with
  | .error e => s.jobStops c i j 0 e
  | .ok ds =>
    if s.linkHeld && hostIn ds then s else
    let m := (s.moved c j.team []).use ds
    let m := (ds.zip j.buf).zipIdx.foldl (fun m x => m.write j.team c x.1.1 x.1.2 (j.px.contains (9, 0, x.2))) m
    (m.s.reach (dieOf c) m.far).setJob c i { j with st := .completing, px := m.px, stop := none }

/-- The port from which a step's bytes come. -/
def stepPort (op step : Nat) (d : List Byte) : Nat :=
  if cardByte d 0 = 1 then cardByte d 7 else if op ≠ 0 ∧ step < cardByte d 1 then cardByte d (8 + step) else cardByte d 6

/-- What a rank receives and sends in a step (R386): whether a segment or a child's value comes in, and the ports it sends on. A tree's total goes down
after the last step. -/
def stepFlits (op step : Nat) (d : List Byte) : Bool × Nat :=
  let n := fieldAt d 2 2
  let r := fieldAt d 4 2
  if cardByte d 0 = 1 then (if op = 0 then (r != 0, if r + 1 = n then 0 else 1) else (true, 1))
  else if op ≠ 0 ∧ step < cardByte d 1 then (true, if r = 0 ∧ step + 1 = cardByte d 1 then cardByte d 1 else 0)
  else if r = 0 then (false, if op = 0 then cardByte d 1 else 0)
  else (true, (if op = 0 then 0 else 1) + cardByte d 1)

/-- The flits of a step between a die and the Shuton fabric (R23, R24, R384, LOG 110): every flit carries the hub's logical count. -/
def State.shuton (s : State) (die : Nat) (fl : Bool × Nat) : State :=
  let s := if fl.1 then s.peerIn.msg 4 die else s
  if fl.2 = 0 then s else (List.range fl.2).foldl (fun s _ => s.sendOut 4) (s.msg die 4)

/-- COLLECTIVE_STEP (R384, R386, R387): flits behind a marker are held (R394); one segment or child, with the bytes that came over the
fabric; after the last step the result is written. -/
def execCollectiveStep (c i : Nat) (data : List Byte) (s : State) : Out :=
  match s.job c i with
  | none => .next s
  | some j =>
    let recv := (stepFlits (cardByte j.card 88) j.step j.desc).1 && decide (j.step < collSteps (cardByte j.card 88) j.desc)
    let held := recv && s.mod2.markers.any fun m => m.1 == stepPort (cardByte j.card 88) j.step j.desc
    if j.st != .running || j.engine != .collective || s.engineStopped j || held then .next s
    else
      let count := cd j.card 96
      let s := if j.buf.length < count * collZ j.card then s.collRead c i j else s
      match s.job c i with
      | none => .next s
      | some j =>
        let op := cardByte j.card 88
        if j.st != .running || decide (j.buf.length < count * collZ j.card) then .next s
        else
          let s := if j.step < collSteps op j.desc ∨ collSteps op j.desc = 0 then s.shuton (dieOf c) (stepFlits op j.step j.desc) else s
          let s := s.progress j.grid
          let j := if j.step < collSteps op j.desc then { j with buf := collOne op (collZ j.card) count j.step j.desc data j.buf, step := j.step + 1 } else j
          if j.step < collSteps op j.desc then .next (s.setJob c i j) else .next ((s.setJob c i j).collWrite c i j)

/-! ### The matrix engine -/

/-- Pop `n` entries of a sparse index queue: 64 words with their poison each (R253, R259). -/
def State.xqPop (s : State) (t q : Nat) : Nat → State × List (List (W32 × Bool))
  | 0 => (s, [])
  | n + 1 =>
    let tm := s.team t
    let hc := tm.xqState q
    let off := (s.grid tm.grid).xqOff q hc.1
    let ws := (List.range 64).map fun i => (BitVec.ofNat 32 (leNat (tm.scr.readN (off + 4 * i) 4)), tm.scrPx.contains (off / 4 + i))
    let s := s.logScr t ((s.grid tm.grid).alloc + 512)
    let r := (s.setTeam t { s.team t with xq := put tm.xq q ((hc.1 + 1) % 8, hc.2 - 1) }).xqPop t q n
    (r.1, ws :: r.2)

/-- Poison in a popped entry discards the operation (R438, R439): an unpublished interval rolls back, otherwise the group's next issue takes
the fault. -/
def State.mxPoison (s : State) (c : Nat) (m : MxOp) (bad : Mask) : State :=
  let s := s.setMxAt c ((s.mxAt c).erase m)
  let g := s.grp m.grp
  let f := flt 0x0D05 bad 0 0
  if s.guardOpen g.team && decide ((s.team g.team).guard.tries < 16) then
    s.containTeam g.team 1 (s.recOf m.grp 3 f m.pc (s.groupFlags m.grp true false false))
  else (s.laterFault m.grp ⟨f, m.mask, m.pc, 2⟩).tryArrives m.grp

/-- MX_START (R255, R259): the engine starts the next operation in order; a sparse one pops its entries, for which it waits. -/
def execMxStart (c : Nat) (s : State) : Out :=
  match findIdx (fun (m : MxOp) => !m.started) (s.mxAt c) with
  | none => .next s
  | some (i, m) =>
    let g := s.grp m.grp
    let n := if m.sparse then mxK ⟨m.word.toNat⟩ / 32 else 0
    if (s.gridOf g).run.acks.contains .matrix || decide (((s.team g.team).xqState m.xq).2 < n) then .next s
    else
      let r := s.xqPop g.team m.xq n
      let idx := r.2.map fun ws => tab fun l => (ws.getD l (0, false)).1
      let bad := maskOf fun l => r.2.any fun ws => (ws.getD l (0, false)).2
      if bad != 0 then .next (r.1.mxPoison c m bad)
      else .next (r.1.setMxAt c ((r.1.mxAt c).set i { m with started := true, idx := idx }))

/-- A row of an operation's frame, at its place in the chain (R181). -/
def Group.chainRow (g : Group) (d r : Nat) : Vals :=
  let p := aliasRow g.frames d r 32
  (get {} (g.frameAt p.1).v p.2).w

/-- The words of lane l of the rows from a first row on; a position that holds no lane supplies zeros (R257). -/
def Group.laneRows (g : Group) (d r l : Nat) (e : Nat) : W32 := if has g.lanes.present l then lane (g.chainRow d (r + e)) l else 0

/-- Element (i, j) of D after an operation (R98, R258, R259). -/
def mxElement (g : Group) (m : MxOp) (i j : Nat) : W32 :=
  let f : FmtWord := ⟨m.word.toNat⟩
  let acc := lane (get {} (g.frameAt m.depth).m (16 * m.dq + j)).w i
  let a := g.laneRows m.depth m.a i
  let b := g.laneRows m.depth m.b j
  let sb := g.laneRows m.depth (m.b + 16) j
  if m.sparse then mxDotSp f a b (g.laneRows m.depth (m.a + 8) i) sb (fun c => lane (m.idx.getD c (Vector.replicate 64 0)) i) acc
  else mxDot f a b (g.laneRows m.depth (m.a + 16) i) sb acc

/-- MX_COMPLETE (R98, R255 to R259): the oldest started operation writes its D rows in the positions that hold a lane. -/
def execMxComplete (c : Nat) (s : State) : Out :=
  match s.mxAt c with
  | [] => .next s
  | m :: rest =>
    if !m.started then .next s
    else
      let g := s.grp m.grp
      let rows := (List.range 64).map fun j => tab fun i => mxElement g m i j
      let f := rows.zipIdx.foldl (fun (f : Frame) x => f.setMRow (16 * m.dq + x.2) g.lanes.present x.1) (g.frameAt m.depth)
      let s := s.setMxAt c rest
      let s := s.setGrp m.grp (g.setFrameAt m.depth f)
      let s := s.noteRows m.grp m.pc g.lanes.present m.depth m.dRows
      let s := if m.halts then s.haltOn m.grp else s
      .next ((s.tryArrives m.grp).tryRetire m.grp)

end Sys2Proof.Machine
end

