-- ==== Sys2Proof/Machine/Answers.lean ====
section
/-! DEFINITION. What an answer does to a parked group or a stopped job (R191, R193, R400, R405, R407, R445, R446). -/

namespace Sys2Proof.Machine

/-- Whether an answer's status is one that a park takes (R405). -/
def Park.takes (p : Park) (status : Nat) : Bool :=
  match p.why with
  | .trap _ => status == 0 || status == 3
  | _ => status == 1 || status == 2 || status == 3

/-- A trap's answer: its lanes resume after it, with the results in s0 and s1 of the frame that was on top (R191). -/
def State.resumeTrap (s : State) (k : Nat) (p : Park) (r0 r1 : W64) : State :=
  s.upd k fun g => ({ g with park := none }.setScAt p.depth 0 ⟨r0, false⟩).setScAt p.depth 1 ⟨r1, false⟩

/-- The fault of a park, or the one that escalated: kind 0x0E03 leaves the lanes after the store (R450). -/
def Park.stays (p : Park) : Bool := p.flt.kind == 0x0E03 || match p.why with
  | .escal o => o == 0x0E03
  | _ => false

/-- A fault's answer: the lanes of the mask resume at the instruction, or after it when it is skipped; a reported store leaves them after it. A
translation fault is replayed with the operands captured at its issue (R405, R445, R450). -/
def State.resumeFault (s : State) (k : Nat) (p : Park) (skip : Bool) : State :=
  (s.upd k fun g =>
    let g := { g with park := none, replay := if skip then none else p.ops }
    if p.stays then g else g.setPc p.mask fun _ => p.pc + BitVec.ofNat 64 (if skip then p.len else 0)).tryRetire k

/-- Answer a parked group with a status that its park takes. -/
def State.answerGroup (s : State) (k : Nat) (p : Park) (status : Nat) (r0 r1 : W64) : State :=
  match status with
  | 0 => s.resumeTrap k p r0 r1
  | 1 => s.resumeFault k p false
  | 2 => s.resumeFault k p true
  | _ => s.abortGroup k p

/-- Answer a stopped job: retry, or its end under R417 (R446). A collective that met the fault at its descriptor reads that again (R385). -/
def State.answerJob (s : State) (c i : Nat) (j : Job) (status : Nat) : State :=
  let again := { j with st := if j.engine == .copy && decide (16 < s.copiesRun c) then .ready else .running, stop := j.stop.map fun x => (x.1, true) }
  if status = 1 then (if j.engine == .collective && j.desc == [] then s.collStart c i again else s.setJob c i again)
  else s.jobFail c i j 0x0703 0 0

end Sys2Proof.Machine
end

