-- ==== Sys2Proof/Machine/Sched.lean ====
section
/-! DEFINITION. The distributor: the line (R306, R307), placement (R35, R36, R309 to R312), moves (R313, R314), slices and pre-emption (R54 to
R57, R308, R431), the hang watchdog (R428 to R430). -/

namespace Sys2Proof.Machine

/-! ### The line -/

/-- Order a list by ascending values of a number, equal ones in their order. -/
def insertBy {α : Type} (f : α → Nat) (x : α) : List α → List α
  | [] => [x]
  | y :: t => if f x < f y then x :: y :: t else y :: insertBy f x t
/-- The list in that order. -/
def sortBy {α : Type} (f : α → Nat) (l : List α) : List α := l.foldl (fun a x => insertBy f x a) []

/-- The effective priority of a grid (R306): edges form no cycle, and the fuel is the number of grids. -/
def State.effPrio (s : State) (k : Nat) : Nat → Nat
  | 0 => (s.grid k).prio
  | n + 1 => s.grids.foldl (fun a e => if !e.2.run.done && e.2.edges.any (fun x => x.1 == k && !x.2.2) then max a (s.effPrio e.1 n) else a) (s.grid k).prio
/-- The effective priority. -/
def State.prioOf (s : State) (k : Nat) : Nat := s.effPrio k s.grids.length

/-- The saved teams of a grid, by linear index. -/
def State.savedTeams (s : State) (k : Nat) : List (Nat × Team) := sortBy (fun e => e.2.lin) (s.teams.filter fun e => e.2.grid == k && !e.2.live)
/-- Every edge of a grid has resolved (R305). -/
def Grid.ready (g : Grid) : Bool := g.edges.all fun e => e.2.2
/-- A grid has something to place: teams, saved teams, or the first test of a relaunch. -/
def State.wants (s : State) (k : Nat) : Bool :=
  let g := s.grid k
  !g.run.done && g.run.pre != 1 && (s.savedTeams k != [] || match g.rl with
    | some r => !r.begun || r.todo != []
    | none => decide (g.run.next < g.teams))

/-- A VF that the cut masks name (R393). -/
def State.inMask (s : State) (vf : Nat) : Bool := if vf < 64 then s.mod_.cutMask0.getLsbD vf else vf < 128 && s.mod_.cutMask1.getLsbD (vf - 64)
/-- A VF of the cut in progress, or of the cut that is made (R394). -/
def State.isCut (s : State) (vf : Nat) : Bool := (s.mod_.cutState == 1 || s.mod_.cutState == 2) && s.inMask vf
/-- Set the state of the cut. -/
def State.cutTo (s : State) (n : Nat) : State := { s with mod_ := { s.mod_ with cutState := n } }
/-- The state of a cut after a step (R393, R394): cut once every acknowledgement and every port's marker is there; idle once no grid of the cut is
saved. -/
def State.cutCheck (s : State) : State :=
  let gs := s.grids.filter fun e => !e.2.run.done && s.inMask e.2.vf
  let live (k : Nat) : Bool := s.teams.any fun e => e.2.grid == k && e.2.live
  if s.mod_.cutState = 1 then
    if gs.all (fun e => !live e.1 && e.2.run.pre != 1) && s.mod2.ports.all (fun p => s.mod2.markers.contains (p, s.mod_.cutId)) then s.cutTo 2 else s
  else if s.mod_.cutState = 3 then
    if gs.all fun e => (s.teams.filter fun t => t.2.grid == e.1 && !t.2.live) == [] then s.cutTo 0 else s
  else s

/-- The ready grids of a partition that have something to place, in the order of the line (R307); those of a cut wait (R394). -/
def State.lineOf (s : State) (p : Nat) : List Nat :=
  let ks := (s.grids.filter fun e => !e.2.run.done && s.partOf e.2 == p && e.2.ready && s.wants e.1 && !s.isCut e.2.vf).map Prod.fst
  sortBy (fun k => (s.grid k).order + 2 ^ 64 * (7 - s.prioOf k)) ks

/-! ### Room on a core (R35, R50, R70, R309) -/

/-- The cores of a die that run work (R15). -/
def workCores (d : Nat) : List Nat := (List.range 47).map (64 * d + ·)
/-- A core takes teams: it and its die are in service. -/
def State.coreServes (s : State) (c : Nat) : Bool := (s.core c).up && (s.die (dieOf c)).online && (s.die (dieOf c)).inService

/-- A slot is a live team's, and has not returned to the core (R37, R45). -/
def State.slotKept (s : State) (k : Nat) : Bool :=
  s.teams.any fun e => e.2.live && e.2.slots.zipIdx.any fun x => x.1 == k && !e.2.back.contains x.2
/-- The free slots of a partition on a core, as group keys (R388). -/
def State.freeSlots (s : State) (c p : Nat) : List Nat :=
  let r := (s.part p).slots
  ((List.range r.2).map (128 * c + r.1 + ·)).filter fun k => (get? s.groups k).isNone && !s.slotKept k

/-- The live teams of a partition on a core. -/
def State.teamsOn (s : State) (c p : Nat) : List (Nat × Team) := s.teams.filter fun e => e.2.live && e.2.core == c && s.partOf (s.grid e.2.grid) == p
/-- A team's rows are free, beside the shadow pool that a first guarded team opens (R35, R50). -/
def State.roomRows (s : State) (c p rows : Nat) (g : Grid) : Bool :=
  decide (rows + (if g.guarded && s.guardedOn c p == [] then (s.part p).rows / 8 else 0) ≤ s.freeRows c p)
/-- Its scratchpad bytes are free, beside those of the teams there and the log of guarded ones (R35, R50). -/
def State.roomScr (s : State) (c p : Nat) (g : Grid) : Bool :=
  let all := (s.part p).scr
  decide (s.teamScr g + (if g.guarded || s.guardedOn c p != [] then all / 16 else 0) +
    (s.teamsOn c p).foldl (fun a e => a + s.teamScr (s.grid e.2.grid)) 0 ≤ all)
/-- The lowest free block of semaphores (R309). -/
def State.semBlock (s : State) (c p n : Nat) : Option Nat :=
  let r := (s.part p).sems
  let taken (k : Nat) : Bool := (s.teamsOn c p).any fun e => decide (e.2.semBase ≤ k) && decide (k < e.2.semBase + (s.grid e.2.grid).nsem)
  if n = 0 then some r.1
  else ((List.range (r.2 + 1 - n)).map (r.1 + ·)).find? fun b => (List.range n).all fun i => !taken (b + i)
/-- The undo area of a guarded team fits in the cellar share (R50, R423). -/
def State.roomUndo (s : State) (c p : Nat) (g : Grid) : Bool := !g.guarded || decide (s.cellarUsed c p + 1048576 ≤ s.cellarShare p)
/-- A suite takes no team of another grid beside fused teams (R70). -/
def State.suiteOk (s : State) (c k : Nat) (g : Grid) : Bool :=
  (s.teams.filter fun e => e.2.live && dieOf e.2.core == dieOf c && e.2.core % 64 / 4 == c % 64 / 4 && e.2.grid != k).all fun e =>
    !g.fused && !(s.grid e.2.grid).fused
/-- The parlour of a grid is carved on a die, or fits there (R18), in the sets of its partition's colours (R390). -/
def State.roomParlour (s : State) (d : Nat) (g : Grid) : Bool :=
  g.parlour == 0 || g.run.parlour.contains d ||
    (decide (s.parlourHeld d + g.parlour ≤ 16777216) && (s.part (s.partOf g)).colour != 0 &&
      (List.range 64).all fun c => !(s.part (s.partOf g)).colour.getLsbD c ||
        decide (parlourTakes d g.parlour (s.part (s.partOf g)).colour (0, c * colourSets d) ≤ s.l2Ways d (0, c * colourSets d)))

/-- A core can take a team of a grid that needs some rows and job-table entries. -/
def State.canTake (s : State) (c k rows jobs : Nat) : Bool :=
  let g := s.grid k
  let p := s.partOf g
  s.coreServes c && (s.part p).reg.getLsbD 40 && decide (g.ngroup ≤ (s.freeSlots c p).length) && s.roomRows c p rows g &&
    s.roomScr c p g && (s.semBlock c p g.nsem).isSome && s.roomUndo c p g && s.suiteOk c k g && s.roomParlour (dieOf c) g &&
    decide (jobs + (s.core c).jobs.length ≤ 64) &&
    (jobs == 0 || decide (jobs + ((s.core c).jobs.filter fun j => (s.grid j.2.grid).vf == g.vf).length ≤ bits (s.vf g.vf).quota0 0 7))

/-- The core of a die that takes the next team: the most free register rows, then the lower number (R310). -/
def State.pickCore (s : State) (d k rows jobs : Nat) : Option Nat :=
  leastBy (fun c => 65536 - s.freeRows c (s.partOf (s.grid k))) ((workCores d).filter fun c => s.canTake c k rows jobs)
/-- Distinct cores among some, ascending, for teams that need rows and job-table entries, in their order. -/
def State.fitCores (s : State) (k : Nat) : List Nat → List (Nat × Nat) → Option (List Nat)
  | _, [] => some []
  | [], _ => none
  | c :: cs, x :: xs => if s.canTake c k x.1 x.2 then (s.fitCores k cs xs).map (c :: ·) else s.fitCores k cs (x :: xs)
/-- The working cores of a suite of a die. -/
def suiteCores (d u : Nat) : List Nat := (workCores d).filter fun c => c % 64 / 4 == u
/-- The cores of the lowest suite of a die that take a gang's teams (R312). -/
def State.pickSuite (s : State) (d k : Nat) (needs : List (Nat × Nat)) : Option (List Nat) :=
  (List.range 12).findSome? fun u => s.fitCores k (suiteCores d u) needs

/-- The candidate dies in the order in which a team tries them (R310). -/
def State.dieOrder (s : State) (k : Nat) : List Nat :=
  let g := s.grid k
  let free (d : Nat) : Nat := (workCores d).foldl (fun a c => a + (s.freeSlots c (s.partOf g)).length) 0
  sortBy (fun d => (if g.prefers d then 0 else 65536) + (65535 - free d)) (s.candidates g)

/-! ### Starting a team (R36) -/

/-- s16 to s31 of a card (R299). -/
def Grid.scalars (g : Grid) : FMap Sc := (List.range 16).map fun i => (16 + i, ⟨BitVec.ofNat 64 (fieldAt g.card (128 + 8 * i) 8), false⟩)
/-- Group n of a team as it starts (R31, R36). -/
def Grid.startGroup (g : Grid) (k t n : Nat) : Group :=
  let r := g.roleOf n
  { live := true, grid := k, team := t, num := n, role := r
    lanes := { present := BitVec.allOnes 64, tid := Vector.ofFn fun i : Fin 64 => BitVec.ofNat 10 (64 * n + i.val)
               pc := Vector.replicate 64 (BitVec.ofNat 64 (fieldAt g.card 24 8)) }
    frames := [{ nv := g.roleNv r, nm := 16 * g.roleNm r, lanes := BitVec.allOnes 64 }]
    regs := { gs := g.scalars } }

/-- The sampling trigger of a core marks a group of a sampled team (R338). -/
def State.sample (s : State) (c k lin : Nat) (slots : List Nat) : State :=
  let r := (s.core c).armR 2
  if s.armed c k 2 && bits r 0 32 != 0 && lin % bits r 0 32 == bits r 32 28 && decide (bits r 60 4 < slots.length) then s.markGroup (slots.getD (bits r 60 4) 0) 5
  else s

/-- Carve the parlour of a grid on a die (R18): the L2 gives up lines for it (R19). -/
def State.carve (s : State) (k d : Nat) : State :=
  let g := s.grid k
  if g.parlour = 0 ∨ g.run.parlour.contains d then s
  else
    let s := s.setParlour k d []
    let s := { s with mem := { s.mem with parPx := s.mem.parPx.filter fun p => !(p.1 == k && p.2.1 == d) } }
    (s.setGrid k { g with run := { g.run with parlour := insertNat d g.run.parlour } }).l2Trim d

/-- The L1s of a suite are joined: a line leaves every part but its own, and is written back where it is dirty (R70, R71). -/
def State.fuseL1 (s : State) (c : Nat) : State :=
  (l1Cores true c).foldl (fun s x => (((s.core x).l1.map Prod.fst).filter fun k => l1Core true c k != x).foldl (fun s k => s.l1Drop x k) s) s

/-- A grid has a team on a core. -/
def State.stands (s : State) (k : Nat) : Bool := s.teams.any fun e => e.2.grid == k && e.2.live
/-- Place team `lin` of a grid, numbered t, on a core (R31, R35, R36, R49, R292, R309, R338). The slices that the grid has run count anew, and the window does not
count for the watchdog, where no team of it stood on a core (R308, R428, LOG 148). -/
def State.placeTeam (s : State) (k lin c t gang : Nat) (gangTeams : List Nat) : State :=
  let s := s.carve k (dieOf c)
  let g := s.grid k
  let p := s.partOf g
  let slots := (s.freeSlots c p).take g.ngroup
  let base := (s.semBlock c p g.nsem).getD 0
  let gen := (s.spaceOf k).gen
  let first := !s.stands k
  let s := slots.zipIdx.foldl (fun s x => s.setGrp x.1 (g.startGroup k t x.2)) s
  let co := s.core c
  let s := s.setCore c { co with sems := (List.range g.nsem).foldl (fun m i => put m (base + i) 0) co.sems }
  let s := s.setTeam t { live := true, grid := k, lin := lin, core := c, first := c, gang := gang, gangTeams := gangTeams, slots := slots, semBase := base
                         recd := { gen := gen } }
  let s := s.setGrid k { g with run := { g.run with
    ran := g.run.ran + 1, inel := g.run.inel || first, pre := 0, slices := if first then 0 else g.run.slices, waited := 0
    moves := g.run.moves.filter fun m => m.1 != lin } }
  let s := s.checkpoint t
  let s := if g.fused then s.fuseL1 c else s
  let s := s.acquire c g.fused (if g.cmd.isSome then .sys else .pkg)
  (s.msg 4 (dieOf c)).sample c k lin slots

/-- Numbers for n teams. -/
def State.newIds (s : State) : Nat → State × List Nat
  | 0 => (s, [])
  | n + 1 =>
    let (i, s) := s.newId
    let r := s.newIds n
    (r.1, i :: r.2)

/-- Place a team, or the teams of one gang, on a die (R310, R312); gangs are counted from linear index `base`. -/
def State.placeOnDie (s : State) (k d base : Nat) (lins : List Nat) : Option State :=
  let g := s.grid k
  let rows := g.teamRows
  if g.gang = 0 then
    match s.pickCore d k rows 0, lins with
    | some c, lin :: _ =>
      let (t, s) := s.newId
      some (s.placeTeam k lin c t t [t])
    | _, _ => none
  else
    match s.pickSuite d k (lins.map fun _ => (rows, 0)) with
    | none => none
    | some cs =>
      let (gang, s) := s.newId
      let (s, ts) := s.newIds lins.length
      -- a gang of which a relaunch runs some teams keeps the positions of the others empty (LOG 34)
      let first := base + (lins.headD 0 - base) / g.gang * g.gang
      let members := (List.range g.gang).map fun q => (findIdx (· == first + q) lins).elim 0 fun x => ts.getD x.1 0
      some ((lins.zip (ts.zip cs)).foldl (fun s x => s.placeTeam k x.1 x.2.2 x.2.1 gang members) s)

/-- The linear indices that are placed together: one team, or those of its gang, gangs being counted from `base` (R32, R311). -/
def Grid.together (g : Grid) (base : Nat) : List Nat → List Nat
  | [] => []
  | l :: t => if g.gang = 0 then [l] else l :: t.takeWhile fun x => (x - base) / g.gang == (l - base) / g.gang

/-- Place the units of a list of teams on one die; none when one finds no place (R311). -/
def State.placeAll (s : State) (k d base : Nat) : List Nat → Nat → Option State
  | [], _ => some s
  | _, 0 => none
  | l :: t, n + 1 =>
    let u := (s.grid k).together base (l :: t)
    match s.placeOnDie k d base u with
    | none => none
    | some s => s.placeAll k d base ((l :: t).drop u.length) n

/-- The linear indices of the block of the candidate of rank r (R311). -/
def Grid.blockLins (g : Grid) (d r : Nat) : List Nat := (List.range (g.block d r).2).map ((g.block d r).1 + ·)
/-- The dies among which a co-resident grid's teams are divided (R311). -/
def State.splitOf (s : State) (g : Grid) : List Nat := if g.run.split = [] then s.candidates g else g.run.split

/-- Once the last team of a grid has been placed, the placement-complete edges from it resolve (R305). -/
def State.resolvePlaced (s : State) (k : Nat) : State :=
  if !(s.grid k).allPlaced then s
  else { s with grids := s.grids.map fun e => (e.1, { e.2 with edges := e.2.edges.map fun x => if x.1 == k && !x.2.1 then (x.1, x.2.1, true) else x }) }

/-- Note that teams of a grid have been placed; at the last one the placement-complete edges resolve (R305). -/
def State.placed (s : State) (k next : Nat) : State :=
  let g := s.grid k
  let s := s.setGrid k { g with run := { g.run with next := next } }
  if next < g.teams then s else (s.parlourBack k).resolvePlaced k

/-- The block of the die of rank r is placed (R311). -/
def State.placeBlock (s : State) (k : Nat) (split : List Nat) (r d : Nat) : Option State :=
  let g := s.grid k
  let b := g.block split.length r
  (s.placeAll k d b.1 (g.blockLins split.length r) b.2).map fun s =>
    let g := s.grid k
    (s.setGrid k { g with run := { g.run with blocks := insertNat d g.run.blocks, split := split } }).placed k (g.run.next + b.2)

/-- All blocks under GRIDRES are placed. -/
def State.placeBlocks (s : State) (k : Nat) (split : List Nat) : Option State :=
  split.zipIdx.foldl (fun s x => s.bind fun s => s.placeBlock k split x.2 x.1) (some s)

/-- The teams of a grid that is not co-resident that are placed next: one, or a gang. -/
def State.nextUnit (s : State) (k : Nat) : List Nat :=
  let g := s.grid k
  match g.rl with
  | some r => g.together 0 r.todo
  | none => if g.coresident then [] else g.together 0 ((List.range (min (max 1 g.gang) (g.teams - g.run.next))).map (g.run.next + ·))

/-- Place the next teams of a grid that has not been placed whole. -/
def State.placeNew (s : State) (k : Nat) : Option State :=
  let g := s.grid k
  match g.rl with
  | some r =>
    if !r.begun then some (s.relaunchBegin k)
    else
      let u := s.nextUnit k
      if u = [] then none
      else ((s.dieOrder k).findSome? fun d => s.placeOnDie k d 0 u).map fun s =>
        (s.setGrid k { s.grid k with rl := some { r with todo := r.todo.drop u.length, rerun := r.rerun ++ u.map fun e => (e, r.round) } }).resolvePlaced k
  | none =>
    let ds := s.splitOf g
    if g.run.next ≥ g.teams ∨ s.candidates g = [] then none
    else if g.attr 4 then s.placeBlocks k ds
    else if g.attr 3 then (ds.zipIdx.filter fun x => !g.run.blocks.contains x.1).findSome? fun x => s.placeBlock k ds x.2 x.1
    else
      let u := s.nextUnit k
      ((s.dieOrder k).findSome? fun d => s.placeOnDie k d 0 u).map fun s => s.placed k (g.run.next + u.length)

/-! ### Saving and resuming a team (R54 to R57, R314) -/

/-- The place of a team's groups after a move of its slots. -/
def rekey (old new : List Nat) (k : Nat) : Nat := (findIdx (· == k) old).elim k fun x => new.getD x.1 k

/-- A frame wait belongs to a team. -/
def State.lineOwn (s : State) (t : Nat) (w : FrameWait) : Bool :=
  match w.act with
  | .bin q => q == t
  | _ => (s.grp w.grp).team == t

/-- Take a team off its core: a release at `.pkg`, and everything of it beside it (R55, R293). In a move its sleepers keep their places in the lines of
their work queues, and its groups their marks (R314, R459). -/
def State.saveTeam (s : State) (t : Nat) (move : Bool) : State :=
  let tm := s.team t
  let c := tm.core
  let g := s.grid tm.grid
  let s := s.release c g.fused .pkg
  let mine (e : Nat × Group) : Bool := e.2.team == t
  let gs := (s.groups.filter mine).map fun e => (e.1, { e.2 with study := { mark := if move then e.2.study.mark else none, pace := e.2.study.pace } })
  let keys := gs.map Prod.fst
  let co := s.core c
  let jobs := co.jobs.filter fun j => j.2.team == t
  let ids := jobs.map Prod.fst
  let off (j : Nat × Job) : Nat × Job :=
    (j.1, { j.2 with preds := j.2.preds.filter ids.contains, st := if j.2.st == .running && j.2.engine == .copy then .ready else j.2.st })
  let leaves (r : WqReq) : Bool := !move && keys.contains r.grp
  let tm' := { tm with
    live := false, pre := 2
    savedGroups := gs, savedJobs := jobs.map off
    savedSems := (List.range g.nsem).map fun i => s.sem tm i
    savedWq := (s.vf g.vf).wqs.flatMap fun (w : Nat × Wq) => (w.2.line.filter leaves).map fun r => (w.1, r)
    savedLine := co.line.filter (s.lineOwn t) }
  let line := co.line.filter fun w => !s.lineOwn t w
  let s := s.setCore c { ids.foldl Core.removeJob co with line := line }
  let v := s.vf g.vf
  let s := s.setVf g.vf { v with wqs := v.wqs.map fun (w : Nat × Wq) => (w.1, { w.2 with line := w.2.line.filter fun r => !leaves r }) }
  let s := { s with groups := s.groups.filter fun e => !mine e }
  (s.setTeam t tm').settle c

/-- Free entries of a job table for saved jobs: old and new entry. -/
def jobPlaces (jobs : FMap Job) (saved : FMap Job) : List (Nat × Nat) :=
  (saved.map Prod.fst).zip ((List.range 64).filter fun i => (get? jobs i).isNone)
/-- A number's new place. -/
def placeAt (m : List (Nat × Nat)) (i : Nat) : Nat := (m.find? fun e => e.1 == i).elim i Prod.snd

/-- Deliver the answers that firmware holds for a resumed team (R193). -/
def State.heldAnswers (s : State) (t : Nat) : State :=
  let s := (s.groupsOf t).foldl (fun s e => match (s.grp e.1).park with
    | some p => match p.ans with
      | some (st, r0, r1) => s.answerGroup e.1 p st r0 r1
      | none => s
    | none => s) s
  let c := (s.team t).core
  ((s.core c).jobs.filter fun j => j.2.team == t).foldl (fun s e => match s.job c e.1 with
    | some j => match j.ans with
      | some st => s.answerJob c e.1 { j with ans := none } st
      | none => s
    | none => s) s

/-- What a team's checkpoint and interval name by slot and job entry, after its slots and entries have changed (R314). -/
def Guardd.rekey (gd : Guardd) (f : Nat → Nat) (m : List (Nat × Nat)) : Guardd :=
  { gd with
    ckpt := gd.ckpt.map fun (k : Ckpt) => { k with
      groups := k.groups.map fun e => (f e.1, e.2)
      pushers := k.pushers.map fun x => (x.1, f x.2.1, x.2.2)
      poppers := k.poppers.map fun x => (x.1, f x.2.1, x.2.2)
      wq := k.wq.map fun x => (x.1, { x.2 with grp := f x.2.grp })
      preqs := k.preqs.map fun x => (x.1, { x.2 with grp := f x.2.grp }) }
    shadow := gd.shadow.map fun x => (f x.1, x.2)
    held := gd.held.map fun x => (f x.1, x.2)
    popped := gd.popped.map fun x => (f x.1, x.2)
    jobs := gd.jobs.map (placeAt m) }

/-- Put a saved team on a core (R55 to R57, R293): an acquire at `.pkg`; withdrawn requests are reissued. In a move it keeps its places at work queues,
and %suite reads the new core's (R314). -/
def State.resumeTeam (s : State) (t c : Nat) (move : Bool) : State :=
  let tm := s.team t
  let g := s.grid tm.grid
  let p := s.partOf g
  let slots := (s.freeSlots c p).take g.ngroup
  let base := (s.semBlock c p g.nsem).getD 0
  let f := rekey tm.slots slots
  let co := s.core c
  let m := jobPlaces co.jobs tm.savedJobs
  let jobs := tm.savedJobs.foldl (fun js e => put js (placeAt m e.1) { e.2 with st := if e.2.st = .running ∧ e.2.engine = .copy then .ready else e.2.st, preds := e.2.preds.map (placeAt m), grp := f e.2.grp, born := co.born + e.2.born }) co.jobs
  let s := s.setCore c { co with jobs := jobs, born := tm.savedJobs.foldl (fun a e => max a (co.born + e.2.born + 1)) co.born
                                 sems := tm.savedSems.zipIdx.foldl (fun m x => put m (base + x.2) x.1) co.sems
                                 line := co.line ++ tm.savedLine.map fun w => { w with grp := f w.grp } }
  let s := tm.savedGroups.foldl (fun s e => s.setGrp (f e.1) e.2) s
  let ops : List (Nat × Nat) := tm.savedGroups.flatMap fun e => e.2.mio.pans.map fun p => (p.id, f e.1)
  let s := { s with preqs := s.preqs.map fun (r : Nat × PReq) => match ops.find? (fun (o : Nat × Nat) => o.1 == r.2.op) with
    | some o => (r.1, { r.2 with grp := o.2, st := if r.2.st = 4 then 0 else r.2.st })
    | none => r }
  let keys := tm.savedGroups.map Prod.fst
  let here (r : WqReq) : WqReq := if move && keys.contains r.grp then { r with grp := f r.grp } else r
  let back (w : Nat) : List WqReq := (tm.savedWq.filter fun r => r.1 == w).map fun r => { r.2 with grp := f r.2.grp }
  let v := s.vf g.vf
  let s := s.setVf g.vf { v with wqs := v.wqs.map fun (w : Nat × Wq) => (w.1, { w.2 with line := w.2.line.map here ++ back w.1 }) }
  let first := !s.stands tm.grid
  let tm' : Team := { tm with
    live := true
    pre := 0
    core := c
    first := if move then c else tm.first
    slots := slots
    semBase := base
    guard := tm.guard.rekey f m
    pushers := tm.pushers.map fun x => (x.1, f x.2.1, x.2.2)
    poppers := tm.poppers.map fun x => (x.1, f x.2.1, x.2.2)
    savedGroups := []
    savedJobs := []
    savedSems := []
    savedWq := []
    savedLine := []
    going := none }
  let s := s.setTeam t tm'
  let gr := s.grid tm.grid
  let s := s.setGrid tm.grid { gr with run := if move then { gr.run with inel := true, pre := 0 } else { gr.run with
    inel := gr.run.inel || first, pre := 0, slices := if first then 0 else gr.run.slices, waited := 0, moves := gr.run.moves.filter fun m => m.1 != tm.lin } }
  let s := if g.fused then s.fuseL1 c else s
  let s := if move then s else s.msg 4 (dieOf c)
  (((s.acquire c g.fused .pkg).settle c).retryPhases t).heldAnswers t

/-- Rows that a saved team needs. -/
def Team.savedRows (t : Team) : Nat := t.savedGroups.foldl (fun a e => a + chainRows e.2.frames) t.heldRows
/-- Rows and job entries that a saved team needs. -/
def Team.savedNeed (t : Team) : Nat × Nat := (t.savedRows, t.savedJobs.length)
/-- The saved teams of a gang, by position. -/
def State.savedGang (s : State) (k gang : Nat) : List (Nat × Team) := (s.savedTeams k).filter fun e => e.2.gang == gang

/-- The dies on which a saved team may resume (R57): for a grid that is co-resident or has a parlour, the one it left (LOG 35). -/
def State.resumeDies (s : State) (k : Nat) (tm : Team) : List Nat :=
  let g := s.grid k
  if g.coresident || g.parlour != 0 then (s.dieOrder k).filter (· == dieOf tm.core) else s.dieOrder k

/-- Resume a saved team, or its gang (R57). -/
def State.resumeUnit (s : State) (k : Nat) (t : Nat) : Option State :=
  let tm := s.team t
  (s.resumeDies k tm).findSome? fun d =>
    if (s.grid k).gang = 0 then (s.pickCore d k tm.savedRows tm.savedJobs.length).map fun c => s.resumeTeam t c false
    else
      let ms := s.savedGang k tm.gang
      (s.pickSuite d k (ms.map fun e => e.2.savedNeed)).map fun cs => (ms.zip cs).foldl (fun s x => s.resumeTeam x.1.1 x.2 false) s

/-- Resume every saved team of a grid, or nothing (R308). -/
def State.resumeAll (s : State) (k : Nat) : Nat → Option State
  | 0 => some s
  | n + 1 => match s.savedTeams k with
    | [] => some s
    | e :: _ => (s.resumeUnit k e.1).bind fun s => s.resumeAll k n

/-- Place or resume the next teams of a grid; none when there is no room (R57, R310 to R312). -/
def State.placeStep (s : State) (k : Nat) : Option State :=
  match s.savedTeams k with
  | [] => s.placeNew k
  | l => if (s.grid k).attr 4 then s.resumeAll k l.length else l.findSome? fun e => s.resumeUnit k e.1

/-- TEAM_PLACE (R35, R57, R307, R310 to R312, R325): the first grid of the line that can use the free resources; only the first itself once it has
waited a full slice. -/
def execTeamPlace (p : Nat) (s : State) : Out :=
  match s.lineOf p with
  | [] => .next s
  | k :: rest =>
    let ks := if 2 ≤ (s.grid k).run.waited then [k] else k :: rest
    match ks.findSome? s.placeStep with
    | some s => .next s.cutCheck
    | none => .next s

/-! ### Moves (R313, R314) -/

/-- The state without some teams on their cores, and their jobs. -/
def State.without (s : State) (ts : List Nat) : State :=
  { s with
    teams := s.teams.filter fun e => !ts.contains e.1
    groups := s.groups.filter fun e => !ts.contains e.2.team
    cores := s.cores.map fun (c : Nat × Core) => (c.1, { c.2 with jobs := c.2.jobs.filter fun j => !ts.contains j.2.team }) }

/-- Sublists of at most n elements. -/
def subsets : List Nat → Nat → List (List Nat)
  | [], _ => [[]]
  | _, 0 => [[]]
  | x :: t, n + 1 => (subsets t n).map (x :: ·) ++ subsets t (n + 1)

/-- A core that can take a running team. -/
def State.takesTeam (s : State) (c t : Nat) : Bool :=
  let tm := s.team t
  s.canTake c tm.grid ((s.groupsOf t).foldl (fun a e => a + chainRows e.2.frames) tm.heldRows) 0

/-- A team may be moved out of a suite for a gang of effective priority `prio` (R313). -/
def State.movable (s : State) (t : Nat) (tm : Team) (prio : Nat) : Bool :=
  let g := s.grid tm.grid
  tm.live && tm.pre == 0 && tm.going.isNone && g.gang == 0 && !g.fused && decide (s.prioOf tm.grid ≤ prio) && tm.moved == 0 &&
    ((s.groupsOf t).all fun e => e.2.study.phase == 0 || e.2.study.phase == 4) &&
    (workCores (dieOf tm.core)).any fun c => c % 64 / 4 != tm.core % 64 / 4 && s.takesTeam c t

/-- The first gang of a block that finds no suite on its die, with the state in which those before it have been placed (R311, R313). -/
def State.stuckUnit (s : State) (k d base : Nat) : List Nat → Nat → Option (State × List Nat)
  | [], _ => none
  | _, 0 => none
  | l :: t, n + 1 =>
    let u := (s.grid k).together base (l :: t)
    match s.placeOnDie k d base u with
    | none => some (s, u)
    | some s => s.stuckUnit k d base ((l :: t).drop u.length) n

/-- A gang that is to find a suite: the first linear index of the teams that are placed together, and the rows and job entries that they need. -/
abbrev GangNeed := Nat × List (Nat × Nat)
/-- The gang of a grid that is to find a suite on a die, and the state that it finds (R313). -/
def State.gangAt (s : State) (k d : Nat) : Option (State × GangNeed) :=
  let g := s.grid k
  match s.savedTeams k with
  | e :: _ => if (s.resumeDies k e.2).contains d then some (s, e.2.lin, (s.savedGang k e.2.gang).map fun x => x.2.savedNeed) else none
  | [] =>
    let here (x : State × List Nat) : State × GangNeed := (x.1, x.2.headD 0, x.2.map fun _ => (g.teamRows, 0))
    if g.coresident && g.rl.isNone then
      let split := s.splitOf g
      match findIdx (· == d) split with
      | some (r, _) =>
        let b := g.block split.length r
        if g.run.blocks.contains d then none else (s.stuckUnit k d b.1 (g.blockLins split.length r) b.2).map here
      | none => none
    else if s.nextUnit k = [] then none else some (here (s, s.nextUnit k))

/-- The teams that have moved for a gang of a grid, or go. -/
def Grid.movesFor (g : Grid) (lin : Nat) : List Nat := (g.run.moves.filter fun m => m.1 == lin).map Prod.snd
/-- The further moves that make room for a gang in a suite: the smallest sets of teams, beside the teams that already go for it, four in all (R313). -/
def State.suiteMoves (s : State) (k d u : Nat) (need : GangNeed) : List (List Nat) :=
  let prio := s.prioOf k
  let moves := (s.grid k).movesFor need.1
  let ts := (s.teams.filter fun e => dieOf e.2.core == d && e.2.core % 64 / 4 == u && s.movable e.1 e.2 prio).map Prod.fst
  let going := moves.filter fun t => (s.team t).going.isSome
  let ok := (subsets ts (4 - moves.length)).filter fun l => ((s.without (l ++ going)).fitCores k (suiteCores d u) need.2).isSome
  match leastBy List.length ok with
  | none => []
  | some l => ok.filter fun m => m.length == l.length

/-- The suite that the distributor compacts for the first grid of a line, with the gang and the sets of teams to move (R313): of suites of the same number that
need equally few moves that of the lower die (LOG 127). -/
def State.compacts (s : State) (k : Nat) : Option (Nat × Nat × List (List Nat)) :=
  let gangs := (s.candidates (s.grid k)).filterMap fun d => (s.gangAt k d).map fun x => (d, x)
  let all := (List.range 12).flatMap fun u => gangs.map fun x => (64 * x.1 + 4 * u, x.2.2.1, x.2.1.suiteMoves k x.1 u x.2.2)
  leastBy (fun x => (x.2.2.headD []).length) (all.filter fun x => x.2.2 != [])

/-- The groups of a team stop at their next instruction that may wait; what waits already has stopped. -/
def Group.stopped (g : Group) : Bool := g.study.phase == 4 || g.eligible == 0
/-- Resume the stopped groups of a team. -/
def State.unstop (s : State) (t : Nat) : State :=
  (s.groupsOf t).foldl (fun s e => if e.2.study.phase = 4 then s.setGrp e.1 { e.2 with study := { e.2.study with phase := 0 } } else s) s

/-- A team that was told to move does not; a move that has been made stays counted (R313). -/
def State.stopMove (s : State) (t : Nat) : State :=
  if (s.team t).going.isNone then s
  else
  let s := (s.setTeam t { s.team t with going := none }).unstop t
  { s with grids := s.grids.map fun (e : Nat × Grid) => (e.1, { e.2 with run := { e.2.run with moves := e.2.run.moves.filter fun m => m.2 != t } }) }

/-- TEAM_MOVE (R313, R314): a team is told to stop for a move to a core, and moves once its groups have stopped and its jobs, loads, stores and
matrix operations have ended. -/
def execTeamMove (t c : Nat) (s : State) : Out :=
  let tm := s.team t
  match tm.going with
  | none =>
    let p := s.partOf (s.grid tm.grid)
    match s.lineOf p with
    | [] => .next s
    | k :: _ =>
      match s.compacts k with
      | none => .next s
      | some (base, lin, ms) =>
        let ok := ms.any (fun m => m.contains t) && dieOf c == dieOf base && c % 64 / 4 != base % 64 / 4 && decide (c % 64 < 47)
        if (s.grid k).gang != 0 && (s.placeStep k).isNone && ok && s.takesTeam c t then
          let gr := s.grid tm.grid
          let s := (s.setTeam t { tm with going := some c }).setGrid tm.grid { gr with run := { gr.run with inel := true } }
          let w := s.grid k
          .next (s.setGrid k { w with run := { w.run with moves := if w.run.moves.contains (lin, t) then w.run.moves else w.run.moves ++ [(lin, t)] } })
        else .next s
  | some c' =>
    let gs := s.groupsOf t
    let idle := gs.all (fun e => e.2.stopped && e.2.mio.loads == [] && e.2.mio.fifo == [] && e.2.stall.isNone && s.mxOf e.1 == []) &&
      !(s.core tm.core).jobs.any fun j => j.2.team == t
    if c != c' || !idle then .next s
    else if !s.takesTeam c t || tm.pre != 0 then .next (s.stopMove t)
    else
      let s := (s.saveTeam t true).resumeTeam t c true
      .next ((s.setTeam t { s.team t with moved := 11 }).unstop t)

/-! ### Slices and pre-emption -/

/-- A running grid of a partition: it has teams on cores and is not being pre-empted. -/
def State.running (s : State) (p : Nat) (e : Nat × Grid) : Bool :=
  !e.2.run.done && e.2.run.pre == 0 && s.partOf e.2 == p && s.teams.any fun t => t.2.grid == e.1 && t.2.live

/-- The grids that may give way to W, in order (R308); among those of the second list the latest accepted comes first (LOG 147). -/
def State.victims (s : State) (p w : Nat) : List Nat :=
  let prio := s.prioOf w
  let gs := (s.grids.filter fun e => e.1 != w && s.running p e).map Prod.fst
  let late (k : Nat) : Nat := 2 ^ 64 - (s.grid k).order
  let lower := sortBy (fun k => late k + 2 ^ 65 * s.prioOf k) (gs.filter fun k => decide (s.prioOf k < prio))
  let equal := sortBy late (gs.filter fun k => s.prioOf k == prio && decide (1 ≤ (s.grid k).run.slices))
  lower ++ if 2 ≤ (s.grid w).run.waited then equal else []

/-- Take victims until W can go on; grids whose pre-emption is under way go too. -/
def State.choose (s : State) (w : Nat) : List Nat → List Nat → List Nat
  | [], acc => acc
  | k :: t, acc =>
    let gone := (s.teams.filter fun e => acc.contains e.2.grid || (s.grid e.2.grid).run.pre == 1).map Prod.fst
    if ((s.without gone).placeStep w).isSome then acc else s.choose w t (acc ++ [k])

/-- Studied groups of a grid return first (R57, R354, R460): one that cannot issue starts its return at once, one that migrates when it has
arrived (R355). -/
def State.sendHome (s : State) (k why : Nat) : State :=
  let g := s.grp k
  -- the record of R458 is still owed for a shelf that is full
  let why := if g.study.due = some 9 then 9 else why
  if g.study.phase = 2 && g.eligible = 0 then s.startReturn k why
  else if g.study.phase = 1 || g.study.phase = 2 then s.setGrp k { g with study := { g.study with due := some why } }
  else s

/-- The pre-emption of a grid begins (R54): unpublished guarded teams roll back and are saved, the others run to their next team barrier. -/
def State.preempt (s : State) (k : Nat) : State :=
  let g := s.grid k
  let s := s.setGrid k { g with run := { g.run with pre := 1, acks := [], inel := true } }
  let s := ((s.groups.filter fun e => e.2.grid == k).map Prod.fst).foldl (fun s x => s.sendHome x 5) s
  (s.teams.filter fun e => e.2.grid == k && e.2.live).foldl (fun s e =>
    let s := s.stopMove e.1
    let open_ := s.guardOpen e.1
    let s := if open_ then s.rollbackOr e.1 none else s
    if (s.grid k).run.done then s else s.setTeam e.1 { s.team e.1 with pre := if open_ then 2 else 1 }) s

/-- SLICE_END (R54, R308): the grids that must give way to the first one that waits begin to be pre-empted. -/
def execSliceEnd (p : Nat) (s : State) : Out :=
  let first := (s.lineOf p).head?
  let tick (e : Nat × Grid) : Nat × Grid :=
    if s.partOf e.2 != p || e.2.run.done then e
    else (e.1, { e.2 with run := { e.2.run with waited := if some e.1 = first then e.2.run.waited + 1 else 0 } })
  let s := { s with grids := s.grids.map tick }
  let cut := (s.grids.filter fun e => s.running p e && s.isCut e.2.vf).map Prod.fst
  let chosen := match first with
    | some w => s.choose w ((s.victims p w).filter fun k => !cut.contains k) cut
    | none => cut
  let count (e : Nat × Grid) : Nat × Grid :=
    if s.partOf e.2 != p || e.2.run.done then e
    else (e.1, { e.2 with run := { e.2.run with
      slices := if s.running p e then e.2.run.slices + 1 else e.2.run.slices
      preRun := if chosen.contains e.1 || e.2.run.pre == 1 then e.2.run.preRun else 0 } })
  .next (chosen.foldl State.preempt { s with grids := s.grids.map count })

/-- The groups of a grid that hold work. -/
def State.gridGroups (s : State) (k : Nat) : List (Nat × Group) := s.groups.filter fun e => e.2.grid == k && e.2.live
/-- Lane execution of a grid has stopped (R54, R55). -/
def State.lanesStopped (s : State) (k : Nat) : Bool :=
  (s.teams.all fun e => e.2.grid != k || e.2.pre == 2) &&
  (s.gridGroups k).all (fun e => e.2.study.phase == 0 && e.2.mio.loads == [] && e.2.mio.fifo == [] && e.2.stall.isNone) &&
  s.preqs.all fun r => (s.team r.2.team).grid != k || r.2.wd || r.2.st == 1 || r.2.st == 2 || r.2.st == 4
/-- Parked and held pantry requests of a grid are withdrawn (R55). -/
def State.panSave (s : State) (k : Nat) : State :=
  { s with preqs := s.preqs.map fun (r : Nat × PReq) =>
      if (s.team r.2.team).grid == k && !r.2.wd && (r.2.st == 1 || r.2.st == 2) then (r.1, { r.2 with st := 4 }) else r }
/-- A grid has jobs of an engine. -/
def State.hasJobs (s : State) (k : Nat) (e : Engine) : Bool := s.cores.any fun c => c.2.jobs.any fun j => j.2.grid == k && j.2.engine == e
/-- A grid has matrix operations. -/
def State.hasMx (s : State) (k : Nat) : Bool := s.groups.any fun e => e.2.grid == k && s.mxOf e.1 != []

/-- Every engine with work of a grid has acknowledged: its teams are saved (R55). -/
def State.collect (s : State) (k : Nat) : State :=
  let acks := (s.grid k).run.acks
  if acks.contains .lane && (!s.hasJobs k .copy || acks.contains .copy) && (!s.hasJobs k .collective || acks.contains .collective) && !s.hasMx k then
    let s := (s.teams.filter fun e => e.2.grid == k && e.2.live).foldl (fun s e => s.saveTeam e.1 false) s
    let g := s.grid k
    s.setGrid k { g with run := { g.run with pre := 2, acks := [], slices := 0, preRun := 0 } }
  else s

/-- ENGINE_PREEMPT_ACK (R55, R249): an engine has stopped at its unit; the engines stop once lane execution has. -/
def execEnginePreemptAck (k : Nat) (e : Engine) (s : State) : Out :=
  let g := s.grid k
  if g.run.pre != 1 || g.run.acks.contains e then .next s
  else
    let ok := match e with
      | .lane => s.lanesStopped k
      | .matrix => g.run.acks.contains .lane && !s.hasMx k
      | _ => g.run.acks.contains .lane
    if !ok then .next s
    else
      let s := s.setGrid k { g with run := { g.run with acks := g.run.acks ++ [e] } }
      let s := if e = .lane then s.panSave k else s
      .next (((s.gridDies k).foldl (fun s d => s.msg d 4) s).collect k).cutCheck

/-- The engine that has not acknowledged, by its number (R431). -/
def State.laggard (s : State) (k : Nat) : Nat :=
  let acks := (s.grid k).run.acks
  if !acks.contains .lane then 1 else if s.hasJobs k .copy && !acks.contains .copy then 2 else if s.hasMx k then 3 else 4

/-- PREEMPT_TIMEOUT (R431): the pre-emption of a grid has not completed in its time; a third time in a row without a higher grid cancels too (LOG 118). -/
def execPreemptTimeout (k : Nat) (s : State) : Out :=
  let g := s.grid k
  if g.run.done || g.run.pre != 1 then .next s
  else
    let higher := s.grids.any fun e => !e.2.run.done && s.partOf e.2 == s.partOf g && decide (s.prioOf k < s.prioOf e.1) && s.wants e.1
    if 2 ≤ g.run.preRun && higher then .next ((s.contPush k (s.gridRec k 0 3 0x0F03 0 (s.laggard k))).containGrid k 1)
    else
      let s := s.homePush k (s.gridRec k 0 2 0x0F02 0 (s.laggard k))
      let g := s.grid k
      let s := s.setGrid k { g with run := { g.run with pre := 0, acks := [], preRun := g.run.preRun + 1 } }
      let ts := (s.teams.filter fun e => e.2.grid == k && e.2.live).map Prod.fst
      let s := ts.foldl (fun s t => s.setTeam t { s.team t with pre := 0 }) s
      let s := { s with preqs := s.preqs.map fun (r : Nat × PReq) => if r.2.st == 4 && ts.contains r.2.team then (r.1, { r.2 with st := 0 }) else r }
      .next (ts.foldl State.retryPhases s)

/-! ### The hang watchdog (R428 to R430) -/

/-- A wait by its number in R430. -/
def Wait.hangCode : Wait → Nat
  | .bar l | .barArr l | .barWt l => levelNum l + 1
  | .hpush _ | .hpop _ _ => 5
  | .sem _ _ => 6
  | _ => 8
/-- A wait that makes a window ineligible: a sleep on a work queue, a frame wait, a stop (R428, R460). -/
def Wait.ineligible : Wait → Bool
  | .wq _ | .frame | .stop => true
  | _ => false

/-- A group stalls where R428 has no progress-eligible time: on a full job table, or on a card that the ATTIC quota keeps waiting (R392), which for a
relaunch is the card of the attic. -/
def State.stallsIneligible (s : State) (g : Group) : Bool :=
  match g.stall with
  | some (.enq _ _) => true
  | some (.launch _ _ card _ rel _) =>
    let vf := (s.gridOf g).vf
    let c := if rel then rlCard ((s.fwRead (s.asnOf vf) (fieldAt card 8 8) 1024).getD []) card else card
    s.atticWaits { noGrid with vf := vf, card := c }
  | _ => false
/-- A mark that the STUDY quota of its VF keeps at home throttles its group (R392). -/
def State.studyThrottled (s : State) (k : Nat) : Bool :=
  let g := s.grp k
  g.study.mark.isSome && g.study.phase == 0 && s.studyQuotaFull (s.gridOf g).vf (dieOf (coreOf k))

/-- A grid is progress-eligible (R428): not while the link holds its traffic (R462). -/
def State.eligibleGrid (s : State) (k : Nat) : Bool :=
  let gs := s.gridGroups k
  let busy (g : Group) : Bool := g.park.isSome || s.stallsIneligible g || g.study.phase == 1 || g.study.phase == 3 || g.lanes.waits.any fun w => Wait.ineligible w.1
  s.mod_.link.state != 2 &&
  (s.teams.any fun e => e.2.grid == k && e.2.live) && (s.grid k).run.pre == 0 && !(s.teams.any fun e => e.2.grid == k && e.2.going.isSome) &&
    gs.all (fun e => !busy e.2 && !s.studyThrottled e.1 && !(e.2.eligible != 0 && s.paceHeld e.1)) &&
    !(s.cores.any fun c => c.2.line.any fun w => match w.act with
      | .bin t => (s.team t).grid == k
      | _ => false) &&
    s.preqs.all fun r => (s.team r.2.team).grid != k || (r.2.st != 1 && r.2.st != 2)

/-- The record of a trip (R430): the team of the lowest index that has not retired, which may be saved; its first group that waits, no lane of which is
eligible, or that an instruction stalls; and of what its lanes wait for what comes first in R430's list. The team waits on its own jobs where no group of it waits
(LOG 153). -/
def State.hangRec (s : State) (k n : Nat) : Rec :=
  let t := (leastBy (fun e => e.2.lin) (s.teams.filter fun e => e.2.grid == k)).getD (0, {})
  let gs := if t.2.live then s.groupsOf t.1 else t.2.savedGroups
  let found := gs.find? fun e => (e.2.lanes.waits != [] && e.2.eligible == 0) || e.2.stall.isSome
  let waiting := found.getD (gs.headD (0, {}))
  let g := waiting.2
  let c := t.2.core
  let left := g.lanes.present &&& ~~~ g.lanes.fin
  let pc := (lanesOf left).foldl (fun a l => if (pcOf g.lanes.pc l).toNat < a then (pcOf g.lanes.pc l).toNat else a) (pcOf g.lanes.pc (lowestOf left)).toNat
  let jobs := (s.core t.2.core).jobs.any fun j => j.2.team == t.1
  let code := if found.isSome then g.lanes.waits.foldl (fun a w => min a (Wait.hangCode w.1)) 8 else if jobs then 7 else 8
  { s.gridRec k t.2.lin 3 0x0F01 0 (code + n * 2 ^ 32) with
    die := dieOf c, core := c % 64, slot := slotOf waiting.1, pc := pc, serial := (get 0 (s.core c).serials (slotOf waiting.1)).toNat, count := (s.die (dieOf c)).count.toNat
    flags := flagBits g.regs.mode false g.studied (s.guardOpen t.1) false false 3 }

/-- The end of a window for one grid. -/
def State.hangTick (s : State) (k : Nat) : State :=
  let g := s.grid k
  if g.run.done then s
  else
    let w := (s.part (s.partOf g)).wdog
    let now := s.eligibleGrid k
    let n := if g.run.progress then 0 else if w.getLsbD 56 && now && !g.run.inel then g.run.hang + 1 else g.run.hang
    let s := s.setGrid k { g with run := { g.run with hang := n, progress := false, inel := !now } }
    if w.getLsbD 56 && decide (bits w 32 24 ≤ n) && decide (0 < n) then (s.contPush k (s.hangRec k n)).containGrid k 1 else s

/-- HANG_WINDOW_END (R428, R430): a window of 1 ms ends for every grid. -/
def execHangWindowEnd (s : State) : Out :=
  let s := { s with teams := s.teams.map fun (e : Nat × Team) => (e.1, { e.2 with moved := e.2.moved - 1 }) }
  .next ((s.grids.map Prod.fst).foldl State.hangTick s)

/-! ### After every step -/

/-- A group that has become eligible while its top frame is in the cellar, or at home though it is on a study core, enters the line (R182, R185,
R342). -/
def State.refillDue (s : State) (k : Nat) : State :=
  let g := s.grp k
  if g.eligible != 0 && (g.top.spilled || (g.study.phase == 2 && !g.top.away)) then (s.refillTop k).settle (coreOf k) else s
/-- A grid that is not progress-eligible after a step makes its window one that does not count (R428). -/
def State.watchEligible (s : State) (k : Nat) : State :=
  if (s.grid k).run.done || (s.grid k).run.inel || s.eligibleGrid k then s
  else s.setGrid k { s.grid k with run := { (s.grid k).run with inel := true } }
/-- What the cores and the watchdog do of themselves after a step: due refills enter the line, the lines of frame waits are served where rows have come
free, at home or on a study core (R184, R342, R424), groups stalled at `enq` go on when there is room (R239, LOG 57), loads and atomics take requests that have become free (R209), a watchpoint stops a
group whose waiting instruction has completed (R348), windows of grids that are not
progress-eligible do not count (R428), and a cut ends when nothing of it is left to stop (R394). -/
def State.housekeep (s : State) : State :=
  let s := (s.groups.map Prod.fst).foldl State.refillDue s
  let s := ((s.cores.filter fun c => c.2.line != []).map Prod.fst).foldl State.settle s
  let s := (s.cores.map Prod.fst).foldl State.enqResume s
  let s := (s.groups.map Prod.fst).foldl (fun s k => (s.takeReqs k).haltWaited k) s
  ((s.grids.map Prod.fst).foldl State.watchEligible s).cutCheck
/-- A next state, with what follows in it. -/
def thenDo (f : State → State) : Out → Out
  | .next s => .next (f s)
  | o => o

end Sys2Proof.Machine
end

