-- ==== Sys2Proof/Machine/Studies.lean ====
section
/-! DEFINITION. The move of a group to a study core and its return (R341 to R345, R354, R355, R458, R459). -/

namespace Sys2Proof.Machine

/-- A group that moves has drained: loads, atomics, matrix operations and store FIFO (R341, R354); a frame wait is none of those that are carried. -/
def State.drained (s : State) (k : Nat) : Bool :=
  (s.grp k).mio.loads == [] && (s.grp k).mio.fifo == [] && s.mxOf k == [] && ((s.grp k).study.phase != 1 || (s.grp k).waitMask (· == .frame) == 0)

/-- A migration is abandoned (R459): the slot and the mark go, and the group continues at home. -/
def State.abandon (s : State) (k : Nat) : State :=
  let g := s.grp k
  let r := s.recOf k 0 ⟨3, 0, 0, 0⟩ 0 (s.groupFlags k false false false)
  let s := (s.errPush (s.gridOf g).vf r).pfPush r
  let c := s.study g.study.core
  let s := s.setStudy g.study.core { c with slots := c.slots.filter fun e => e.2 != k }
  s.setGrp k { g with frames := g.frames.map fun f => { f with away := false }, study := { pace := g.study.pace } }

/-- A group's move is a release and an acquire at `.pkg` of its own accesses (R293). -/
def State.moveOrder (s : State) (k : Nat) : State := (s.release (coreOf k) (s.gridOf (s.grp k)).fused .pkg).acquireBy k .pkg
/-- STUDY_MIGRATION_ARRIVE (R293, R341, R355, R459): the last byte of a migration lands, or a unit fails its CRC for the third time; a group that is to
return for a slice end and cannot issue returns at once. -/
def execStudyMigrationArrive (g : Nat) (crcFail : Bool) (s : State) : Out :=
  let x := s.grp g
  if x.study.phase != 1 || !s.drained g then .next s
  else if crcFail then .next (s.abandon g)
  else
    let s := (s.arriveStudy g).moveOrder g
    let stays := (s.grp g).eligible = 0 || (s.team (s.grp g).team).pre == 2
    .next (if (s.grp g).study.due = some 5 && stays then s.startReturn g 5 else s)

/-- Rows of the frames that the study core held, of `there`, that failed their CRC during a return land with every lane word poisoned (R459). A number names
a row, m rows from 64 on, and counts 256 for each frame below the top one. -/
def State.returnRows (s : State) (k : Nat) (there : Group) (rows : List Nat) : State :=
  let held (r : Nat) : Bool :=
    let f := there.frames.getD (r / 256) {}
    decide (r / 256 < there.frames.length) && f.away && if r % 256 < 64 then decide (r % 256 < f.nv) else decide (r % 256 - 64 < f.nm)
  let bad := rows.filter held
  if bad = [] then s
  else
    let all : Mask := BitVec.allOnes 64
    let g := s.grp k
    let s := s.setGrp k (bad.foldl (fun (g : Group) r =>
      let d := g.fdepth - r / 256
      let n := r % 256
      let f := g.frameAt d
      g.setFrameAt d (if n < 64 then f.landRow n all (get {} f.v n).w all else f.landMRow (n - 64) all (get {} f.m (n - 64)).w all)) g)
    s.homePush g.grid (s.recOf k 2 ⟨4, 0, 0, BitVec.ofNat 64 bad.length⟩ 0 (s.groupFlags k false false false))

/-- Groups of a study core are contained, since its control state failed, or a state block (R459). -/
def State.stateLost (s : State) (c : Nat) (ks : List Nat) (control : Bool) : State :=
  let recs := ks.map fun x => ((s.grp x).team, s.recOf x 3 ⟨5, 0, 0, 0⟩ 0 (s.groupFlags x false false false))
  let r : Rec := { cls := 2, kind := 6, die := dieOf c, core := c % 64, flags := flagBits false false true false false false 3, count := (s.die (dieOf c)).count.toNat }
  let s := if control then (s.setStudy c { s.study c with failed := true }).pfPush r else s
  let s := ks.foldl State.leaveStudy s
  (recs.foldl (fun (a : State × List Nat) x => if a.2.contains x.1 then a else (a.1.containTeam x.1 1 x.2, x.1 :: a.2)) (s, [])).1

/-- A study core finds its own control state uncorrectable (R459): every group that it holds is contained. -/
def State.controlLost (s : State) (c : Nat) : State := s.stateLost c ((s.study c).slots.map Prod.snd) true

/-- STUDY_RETURN_COMPLETE (R354, R355, R458, R459): the depart record and the histories are written, and the group goes on at home. -/
def execStudyReturnComplete (g : Nat) (badRows : List Nat) (badState badControl : Bool) (s : State) : Out :=
  let x := s.grp g
  if x.study.phase != 3 || !s.drained g then .next s
  else
    let full := x.study.reason == 9
    let s := (s.panRecords g).moveRecord g 6 x.study.reason
    let s := if full then s else s.historyRecords g
    let s := if full then
        s.homePush x.grid (s.recOf g 2 ⟨2, 0, 0, 0⟩ 0 (flagBits x.regs.mode false true (s.guardOpen x.team) false false 3))
      else s
    if badControl then .next (s.controlLost x.study.core)
    else if badState then .next (s.stateLost x.study.core [g] false)
    else .next (((s.leaveStudy g).returnRows g x badRows).moveOrder g)

end Sys2Proof.Machine
end

