-- ==== Sys2Proof/Machine/HostCmd.lean ====
section
/-! DEFINITION. The host's side: commands (R365 to R371, R405), work queues fed by the host (R373, R374), doorbells and control blocks (R362 to
R365, R464), the answers to a stopped queue (R403, R404), registers (R6, R362, R388 to R393, R402, R429), cuts (R393, R394), the aperture (R472). -/

namespace Sys2Proof.Machine

/-! ### The checks of a command (R366, R367, R472) -/

/-- A power of two from lo to hi. -/
def isPow2 (lo hi n : Nat) : Bool := decide (lo ≤ n) && decide (n ≤ hi) && (List.range 33).any fun e => n == 2 ^ e
/-- The bytes from lo to hi that are not 0, each a failing field. -/
def unused (b : List Byte) (lo hi : Nat) : List (Bool × Nat) := (List.range (hi - lo)).map fun i => (cardByte b (lo + i) != 0, lo + i)
/-- Grids of a VF that are accepted and not complete (R362). -/
def State.liveGrids (s : State) (vf : Nat) : Nat := (s.grids.filter fun e => e.2.vf == vf && !e.2.run.done).length

/-- An opcode, item or op of R367, R370 and R371. -/
def cmdKnown (b : List Byte) : Bool :=
  let op := cardByte b 0
  decide (1 ≤ op) && decide (op ≤ 12) && (op != 8 || decide (cardByte b 8 ≤ 3)) && (op != 11 || decide (cardByte b 8 ≤ 8)) &&
    (op != 12 || decide (cardByte b 9 ≤ 1))

/-- The study registers whose value has a range (R350, R457): the value breaks it. -/
def studyValueBad (n v : Nat) : Bool := (n == 9 && v % 65536 != 0) || (n == 10 && (v % 65536 != 0 || decide (2 ^ 32 < v))) || (n == 11 && v % 32 != 0)

/-- The fields of a STUDY (R370). -/
def studyFields (vf : Nat) (b : List Byte) : List (Bool × Nat) :=
  if cardByte b 8 = 0 then
    [(vf != 128, 8), (decide (16 ≤ cardByte b 9), 9)] ++ unused b 10 12 ++ [(decide (224 ≤ fieldAt b 12 4), 12), (decide (2 ^ 52 ≤ fieldAt b 16 8), 16),
      (studyValueBad (fieldAt b 12 4) (fieldAt b 24 8), 24)] ++ unused b 32 56
  else [(decide (3 < cardByte b 8), 8)] ++ unused b 9 12 ++ unused b 25 56

/-- The fields of a VFCONF (R371); one that only the physical function may issue fails at its item. -/
def State.vfconfFields (s : State) (vf : Nat) (b : List Byte) : List (Bool × Nat) :=
  let v := cardByte b 9
  let pf : Bool × Nat := (vf != 128, 8)
  let ring := unused b 9 16 ++ [(fieldAt b 16 8 % 64 != 0, 16), (!isPow2 16 4096 (fieldAt b 24 4), 24)] ++ unused b 28 56
  match cardByte b 8 with
  | 0 => unused b 9 16 ++ [(fieldAt b 16 8 % 256 != 0, 16)] ++ unused b 24 56
  | 1 => ring
  | 2 => ring
  | 3 => [pf, (decide (128 ≤ v), 9), (decide (8 ≤ cardByte b 10), 10)] ++ unused b 11 56
  | 4 => [pf, (decide (16 ≤ v), 9)] ++ unused b 10 24 ++ [(decide (fieldAt b 24 4 < 100) || decide (100000 < fieldAt b 24 4), 24)] ++ unused b 28 56
  | 5 =>
    let n := fieldAt b 12 4
    let root := fieldAt b 16 8
    let shared := s.vfs.any fun e => e.1 != v && e.2.asn == some n
    [pf, (decide (128 ≤ v) || s.liveGrids v != 0, 9)] ++ unused b 10 12 ++
      [(decide (128 ≤ n), 12), (root % 4096 != 0 || decide (devTop ≤ root) || (shared && (s.space n).root != some root), 16)] ++ unused b 24 56
  | 6 => [pf, (decide (128 ≤ v) || s.liveGrids v != 0, 9), (decide (16 ≤ cardByte b 10), 10)] ++ unused b 11 56
  | 7 => unused b 9 16 ++ [(fieldAt b 16 8 % 65536 != 0, 16), (fieldAt b 24 4 == 0 || decide (16384 < fieldAt b 24 4), 24)] ++ unused b 28 56
  | 8 => unused b 9 16 ++ [(((s.asnOf vf).bind fun n => get? (s.space n).regions (fieldAt b 16 8)).isNone, 16)] ++ unused b 24 56
  | _ => [(true, 8)]

/-- An address that an address space maps to device memory. -/
def State.inDevice (s : State) (asn : Option Nat) (va : Nat) : Bool := match s.walk asn va with
  | .ok e _ => pteTgt e == 0
  | .bad _ _ => false
/-- The fields of a WQCONF (R367, R374, R392). -/
def State.wqconfFields (s : State) (vf : Nat) (b : List Byte) : List (Bool × Nat) :=
  let w := cardByte b 8
  let v := s.vf vf
  if cardByte b 9 = 0 then
    [(decide (64 ≤ w) || (get? v.wqs w).isSome || decide (bits v.quota1 32 7 ≤ v.wqs.length), 8)] ++ unused b 10 12 ++
      [(!isPow2 16 65536 (fieldAt b 12 4), 12), (fieldAt b 16 8 % 4096 != 0 || !s.inDevice (s.asnOf vf) (fieldAt b 16 8), 16)] ++ unused b 24 56
  else
    let busy := match get? v.wqs w with
      | some q => decide (q.head < q.tail) || q.line != []
      | none => true
    [(decide (64 ≤ w) || busy, 8), (cardByte b 9 != 1, 9)] ++ unused b 10 56

/-- The payload of a command: each check with the byte offset of its field. -/
def State.payload (s : State) (vf : Nat) (b : List Byte) : List (Bool × Nat) :=
  let a := fieldAt b 8 8
  match cardByte b 0 with
  | 1 => (a % 256 != 0, 8) :: unused b 16 56
  | 2 => (a % 64 != 0, 8) :: unused b 16 56
  | 3 =>
    let w := cardByte b 8
    [(decide (64 ≤ w) || (get? (s.vf vf).wqs w).isNone, 8)] ++ unused b 9 12 ++
      [(fieldAt b 12 4 == 0 || decide (65536 < fieldAt b 12 4), 12), (fieldAt b 16 8 % 64 != 0, 16)] ++ unused b 24 56
  | 4 => (fieldAt b 24 8 == 0 || decide (2 ^ 40 < fieldAt b 24 8), 24) :: unused b 32 56
  | 5 => (a % 8 != 0, 8) :: unused b 24 56
  | 6 => (a % 8 != 0, 8) :: unused b 24 56
  | 7 => unused b 8 56
  | 8 => studyFields vf b
  | 9 => (a % 65536 != 0, 8) :: unused b 24 56
  | 10 => (decide (4 ≤ cardByte b 11), 11) :: (unused b 14 16 ++ unused b 32 56)
  | 11 => s.vfconfFields vf b
  | 12 => s.wqconfFields vf b
  | _ => [(true, 0)]

/-- The byte offset of the first failing field of a command, if one fails. -/
def State.cmdBad (s : State) (vf : Nat) (b : List Byte) : Option Nat :=
  firstReason ([(cardByte b 0 == 0 || decide (12 < cardByte b 0), 0), (decide (4 ≤ cardByte b 1), 1), (fieldAt b 2 2 != 0, 2)] ++ s.payload vf b ++
    [(fieldAt b 62 2 != 0, 62)])

/-! ### Starting a command (R365, R368, R369) -/

/-- The next command of a queue that has not started. -/
def Queue.nextCmd (x : Queue) : Option (Nat × Cmd) := x.cmds.find? fun e => !e.2.started
/-- A WAIT or an APPEND that has started and not completed holds back the commands behind it (R368, R373). -/
def Queue.holdsBack (x : Queue) : Bool :=
  x.cmds.any fun e => e.2.started && e.2.status.isNone && (cardByte e.2.bytes 0 == 6 || cardByte e.2.bytes 0 == 3)
/-- Commands of a queue may start: it runs, a firmware core serves it, and its VF is not cut (R372, R394). -/
def State.queueRuns (s : State) (vf q : Nat) : Bool :=
  let x := s.queue vf q
  x.cb.enabled && !x.cb.stopped && s.fwServes vf q && !s.isCut vf && !x.holdsBack

/-- The next command of a queue may start now: it waits for the earlier ones under FENCE, and so does a SIGNAL (R366, R368). -/
def State.startable (s : State) (vf q : Nat) : Bool :=
  s.queueRuns vf q && match (s.queue vf q).nextCmd with
    | some (i, c) => !(cardByte c.bytes 1 / 2 % 2 == 1 || cardByte c.bytes 0 == 5) || (s.queue vf q).cb.done == i
    | none => false
/-- A queue among those of the module, 16 to each function. -/
def queueKey (vf q : Nat) : Nat := vf * 16 + q
/-- A queue's command is next on its firmware core: the core takes queues in turn, one command from each (R372). -/
def State.hasTurn (s : State) (vf q : Nat) : Bool :=
  match s.serverDie vf q with
  | none => false
  | some d =>
    let after (k : Nat) : Nat := (k + 2063 - (s.die d).turn) % 2064
    s.vfs.all fun v => v.2.queues.all fun x =>
      s.serverDie v.1 x.1 != some d || !s.startable v.1 x.1 || decide (after (queueKey vf q) ≤ after (queueKey v.1 x.1))
/-- The turn of a queue's firmware core passes to the queues after it. -/
def State.takeTurn (s : State) (vf q : Nat) : State := match s.serverDie vf q with
  | some d => s.setDie d { s.die d with turn := queueKey vf q }
  | none => s

/-- The command starts: it is marked with the die of the firmware core that starts it, and its result word is written (R369, R372). -/
def State.cmdBegin (s : State) (vf q i r : Nat) : State :=
  let x := s.queue vf q
  let c := get { bytes := [] } x.cmds i
  (s.setQueue vf q { x with cmds := put x.cmds i { c with started := true, by_ := (s.serverDie vf q).getD 4 } }).writeResult vf q i r

/-- Start the next command of a queue, when its turn has come and it is one that `want` accepts: a failing field refuses it; otherwise it acts. An
opcode, item or op that R367, R370 and R371 do not list is refused. -/
def startCmd (vf q : Nat) (want : List Byte → Bool) (act : State → Nat → List Byte → State) (s : State) : Out :=
  let x := s.queue vf q
  if !s.startable vf q || !s.hasTurn vf q then .next s
  else match x.nextCmd with
  | none => .next s
  | some (i, c) =>
    let b := c.bytes
    let s' := s
    let s := s.takeTurn vf q
    if !(want b || !cmdKnown b) then .next s'
    else match s.cmdBad vf b with
    | some off => .next (s.cmdRefuse vf q i 0x0013 (x.slotAddr i) off)
    | none => .next (act s i b)

/-- A command of one opcode. -/
def isOp (n : Nat) (b : List Byte) : Bool := cardByte b 0 == n
/-- A command that acts at once and completes: its result is 0. -/
def simpleCmd (vf q : Nat) (want : List Byte → Bool) (f : List Byte → State → State) (s : State) : Out :=
  startCmd vf q want (fun s i b => (f b (s.cmdBegin vf q i 0)).cmdDone vf q i 0) s

/-- A grid card of a command (R300, R367). -/
def launchStart (vf q kind : Nat) (ask : State → List Byte → Nat → Answer) (n : Nat) (s : State) (i : Nat) (b : List Byte) : State :=
  if s.fwHeld (s.asnOf vf) false (fieldAt b 8 8) n then s
  else
  let card := s.fwGet (s.writerDie vf q) vf q (fieldAt b 8 8) n
  match ask card.2 (card.1.getD []) i with
  | .wait => s
  | .refuse s why => s.cmdRefuse vf q i kind ((s.queue vf q).slotAddr i) why
  | .ok s k => (s.cmdBegin vf q i (s.grid k).num.toNat).atticLost k
/-- LAUNCH (R299 to R302, R367, R416). -/
def execLaunchCmd (vf q : Nat) (s : State) : Out :=
  startCmd vf q (isOp 1) (launchStart vf q 0x0C01 (fun s card i => s.accept vf card q (some i)) 256) s
/-- RELAUNCH (R330, R367, R416). -/
def execRelaunch (vf q : Nat) (s : State) : Out :=
  startCmd vf q (isOp 2) (launchStart vf q 0x0C02 (fun s card i => s.acceptRl vf card q (some i)) 64) s

/-- A started command ends on a refused access (R367, R472): kind 0x0014, the first address and the bytes performed. -/
def State.cmdAccess (s : State) (vf q i addr done : Nat) : State := s.cmdRefuse vf q i 0x0014 addr done

/-! ### APPEND, COPY, SIGNAL, WAIT, MARK -/

/-- No append that arrived earlier waits at a work queue (R251): those ahead of an APPEND in the line, or all of it. -/
def Wq.isNext (k : Wq) (cmd : Nat × Nat) : Bool := (k.line.takeWhile fun r => r.cmd != some cmd).all fun r => !r.push
/-- An APPEND leaves the line. -/
def Wq.without (k : Wq) (cmd : Nat × Nat) : Wq := { k with line := k.line.filter fun r => r.cmd != some cmd }
/-- An APPEND waits in the line, at the place where it arrived. -/
def Wq.waitsAt (k : Wq) (cmd : Nat × Nat) : Wq :=
  if k.line.any fun r => r.cmd == some cmd then k else { k with line := k.line ++ [{ grp := 2 ^ 32, push := true, off := 0, mask := 0, cmd := some cmd }] }

/-- Append the records of an APPEND while the queue has room and no earlier append waits (R251, R373): at most n. -/
def State.appendMore (s : State) (vf q i w count base : Nat) : Nat → State
  | 0 => s
  | n + 1 =>
    let x := s.queue vf q
    let c := get { bytes := [] } x.cmds i
    match s.wq vf w with
    | none => s
    | some k =>
      if count ≤ c.step then (s.setWq vf w (k.without (q, i))).cmdDone vf q i 0
      else if k.size ≤ k.tail - k.head || !k.isNext (q, i) then s.setWq vf w (k.waitsAt (q, i))
      else match s.fwBytes (s.asnOf vf) false (base + 64 * c.step) 64, s.fwBytes (s.asnOf vf) true (k.base + 64 * (k.tail % k.size)) 64 with
      | .error a, _ => (s.setWq vf w (k.without (q, i))).cmdAccess vf q i a (64 * c.step)
      | _, .error a => (s.setWq vf w (k.without (q, i))).cmdAccess vf q i a (64 * c.step)
      | .ok src, .ok dst =>
        if s.linkHeld && (hostIn src || hostIn dst) then s.setWq vf w (k.waitsAt (q, i))
        else
        let fails := s.fwFails src
        let bs := src.map fun a => let b := s.directByte a 0; (b.1, b.2 || fails)
        let s := (s.fwTrip c.by_ src).wqPut vf w k dst (bs.map Prod.fst) ((bs.zipIdx.filter fun b => b.1.2).map Prod.snd)
        let s := if fails then s.excPush vf q (s.cmdRec vf 0x0D06 (base + 64 * c.step) 0 c.bytes) else s
        let x := s.queue vf q
        let s := s.setQueue vf q { x with cmds := put x.cmds i { c with step := c.step + 1 } }
        s.appendMore vf q i w count base n

/-- The APPEND of a queue that has started and waits for room. -/
def Queue.appending (x : Queue) : Option (Nat × Cmd) := x.cmds.find? fun e => e.2.started && e.2.status.isNone && !e.2.refused && isOp 3 e.2.bytes

/-- The first address of the ring slots of an APPEND of n records that a page refuses (R367). -/
def State.slotsBad (s : State) (asn : Option Nat) (k : Wq) (n : Nat) : Option Nat :=
  (List.range (min n k.size)).findSome? fun j => match s.fwBytes asn true (k.base + 64 * ((k.tail + j) % k.size)) 64 with
    | .error a => some a
    | .ok _ => none

/-- APPEND (R367, R373): its accesses are checked whole; the records are appended while there is room, and the rest when the event comes again. -/
def execAppend (vf q : Nat) (s : State) : Out :=
  let go (s : State) (i : Nat) (b : List Byte) : State := s.appendMore vf q i (cardByte b 8) (fieldAt b 12 4) (fieldAt b 16 8) (fieldAt b 12 4 + 1)
  match (s.queue vf q).appending with
  | some (i, c) => if s.fwGoesOn vf q c then .next (go s i c.bytes) else .next s
  | none =>
    startCmd vf q (isOp 3) (fun s i b =>
      match s.fwBytes (s.asnOf vf) false (fieldAt b 16 8) (64 * fieldAt b 12 4) with
      | .error a => s.cmdAccess vf q i a 0
      | .ok _ => match (s.wq vf (cardByte b 8)).bind fun k => s.slotsBad (s.asnOf vf) k (fieldAt b 12 4) with
        | some a => s.cmdAccess vf q i a 0
        | none => go (s.cmdBegin vf q i 0) i b) s

/-- COPY starts (R367); COPY_COMPLETE performs it. -/
def execCopy (vf q : Nat) (s : State) : Out := startCmd vf q (isOp 4) (fun s i _ => s.cmdBegin vf q i 0) s

/-- What a COPY has done: the state, the poisoned destinations, and the address at which it stopped. -/
structure Copied where
  s : State
  bad : List Acc := []
  stop : Option Nat := none
  n : Nat := 0
  /-- The dies that its bytes came from or went to, 4 for the host. -/
  far : List Nat := []
  /-- The lines that have taken their places in the home L2s (R72). -/
  lines : List (Nat × Bool) := []
  /-- The first address that the host answered with an error completion (R438). -/
  failed : Option Nat := none

/-- Copy bytes from offset `off` on, in ascending order (R367). -/
def Copied.run (asn : Option Nat) (src dst : Nat) (all : List (Nat × Nat × Nat)) (m : Copied) : Nat → Copied
  | 0 => m
  | n + 1 =>
    match m.s.fwBytes asn false (src + m.n) 1, m.s.fwBytes asn true (dst + m.n) 1 with
    | .error a, _ => { m with stop := some a }
    | _, .error a => { m with stop := some a }
    | .ok as, .ok ds =>
      let d := ds.headD ⟨0, 0, .zero, 1⟩
      let r := (({ s := m.s, px := [], stop := none, far := m.far, lines := m.lines, failed := m.failed } : Moved).use (as ++ ds)).read as
      let b := r.2.headD (0, false)
      let s := (r.1.s.directWrite d [b.1] all).markDirty asn d.va
      Copied.run asn src dst all { m with
        s := s
        bad := if b.2 then d :: m.bad else m.bad
        n := m.n + 1
        far := r.1.far
        lines := r.1.lines
        failed := r.1.failed } n

/-- The places of the destination bytes of a COPY that it reaches, as far as pages allow. -/
def State.copyReach (s : State) (asn : Option Nat) (src dst : Nat) : Nat → Nat → List (Nat × Nat × Nat)
  | _, 0 => []
  | o, n + 1 =>
    match s.fwBytes asn false (src + o) 1, s.fwBytes asn true (dst + o) 1 with
    | .ok _, .ok ds => ds.map (fun a => a.tgt.at_ 0) ++ s.copyReach asn src dst (o + 1) n
    | _, _ => []

/-- COPY_COMPLETE (R367, R368): the oldest COPY of a queue that runs is performed at `.sys`, or stops at the first byte that a page refuses; an error
completion of the host's is reported once (R438, LOG 17). -/
def execCopyComplete (vf q : Nat) (s : State) : Out :=
  match (s.queue vf q).cmds.find? fun e => e.2.started && e.2.status.isNone && !e.2.refused && isOp 4 e.2.bytes with
  | none => .next s
  | some (i, c) =>
    if !s.fwGoesOn vf q c then .next s else
    let s' := s
    let asn := s.asnOf vf
    let src := fieldAt c.bytes 8 8
    let dst := fieldAt c.bytes 16 8
    let n := fieldAt c.bytes 24 8
    let m := Copied.run asn src dst (s.copyReach asn src dst 0 n) { s := s } n
    let s := (m.bad.foldl State.poisonUnit m.s).reach c.by_ m.far
    let s := match m.failed with
      | some a => s.excPush vf q (s.cmdRec vf 0x0D06 a 0 c.bytes)
      | none => s
    if s.linkHeld && m.far.contains 4 then .next s'
    else match m.stop with
    | some a => .next (s.cmdAccess vf q i a m.n)
    | none => .next (s.cmdDone vf q i 0)

/-- Test a WAIT that has started (R368), on the core that started it; a read of host memory waits for the link (R462), and a page that now refuses the access ends it (R367, R472). -/
def State.retest (s : State) (vf q : Nat) : State :=
  match (s.queue vf q).cmds.find? fun e => e.2.started && e.2.status.isNone && !e.2.refused && isOp 6 e.2.bytes with
  | none => s
  | some (i, c) =>
    if !s.fwGoesOn vf q c then s
    else match s.fwBytes (s.asnOf vf) false (fieldAt c.bytes 8 8) 8 with
    | .error a => s.cmdAccess vf q i a 0
    | .ok as =>
      if s.linkHeld && hostIn as then s
      else
      let g := s.fwGet c.by_ vf q (fieldAt c.bytes 8 8) 8
      match g.1 with
      | some b => if fieldAt c.bytes 16 8 ≤ leNat b then g.2.cmdDone vf q i 0 else g.2
      | none => g.2
/-- Test every WAIT of the module (R368). -/
def State.retestAll (s : State) : State := s.vfs.foldl (fun s v => v.2.queues.foldl (fun s x => s.retest v.1 x.1) s) s

/-- SIGNAL (R368): it starts only when every earlier command has completed; every WAIT is tested again after it. -/
def execSignal (vf q : Nat) (s : State) : Out :=
  startCmd vf q (isOp 5) (fun s i b =>
    match s.fwBytes (s.asnOf vf) true (fieldAt b 8 8) 8 with
    | .error a => s.cmdAccess vf q i a 0
    | .ok as => ((((s.cmdBegin vf q i 0).fwSend (s.writerDie vf q) as).fwPut (s.asnOf vf) as (leBytes 8 (fieldAt b 16 8))).cmdDone vf q i 0).retestAll) s

/-- WAIT (R368). -/
def execWait (vf q : Nat) (s : State) : Out :=
  startCmd vf q (isOp 6) (fun s i b =>
    match s.fwBytes (s.asnOf vf) false (fieldAt b 8 8) 8 with
    | .error a => s.cmdAccess vf q i a 0
    | .ok _ => (s.cmdBegin vf q i 0).retest vf q) s
/-- WAIT_RETEST (R368). -/
def execWaitRetest (vf q : Nat) (s : State) : Out := .next (s.retest vf q)

/-- MARK (R323, R367): a generation opens; its low bits are the result. -/
def execMark (vf q : Nat) (s : State) : Out :=
  startCmd vf q (isOp 7) (fun s i _ =>
    let n := (s.asnOf vf).getD 0
    let s := s.openGen n
    (s.cmdBegin vf q i ((s.space n).gen % 2 ^ 32)).cmdDone vf q i 0) s

/-! ### STUDY (R336, R337, R347, R350, R363, R370, R457) -/

/-- The arming that sent a group is withdrawn (R354): GRID has changed, or the bit of its trigger is cleared. -/
def withdrawn (old new : W64) (cause : Nat) : Bool :=
  let b := match cause with
    | 1 => 0
    | 5 => 2
    | 6 => 3
    | 7 => 4
    | _ => 1
  cause != 4 && (bits old 32 32 != bits new 32 32 || (old.getLsbD b && !new.getLsbD b))

/-- Write STUDYCTL of a compute core: marks go when GRID changes (R459), and groups sent under RC are to return (R354). -/
def State.writeCtl (s : State) (key : Nat) (v : W64) : State :=
  let old := (s.core key).armR 0
  let new := v &&& 0xFFFFFFFF0FFF1DFF
  let co := s.core key
  let s := s.setCore key { co with arm := put co.arm 0 new }
  let step (e : Nat × Group) : Nat × Group :=
    let g := e.2
    if coreOf e.1 != key then e
    else
      let t := g.study
      let t := if bits old 32 32 != bits new 32 32 then { t with mark := none } else t
      let back := (t.phase == 1 || t.phase == 2) && t.ctl.getLsbD 12 && bits old 32 32 == s.gridNum g.grid && withdrawn old new t.cause
      (e.1, { g with study := if back && t.due.isNone then { t with due := some 3 } else t })
  { s with groups := s.groups.map step }

/-- Write a register of a study core. -/
def State.writeStudy (s : State) (key n : Nat) (v : W64) : State :=
  let c := s.study key
  if n = 9 ∨ n = 10 then
    let s := s.setStudy key { c with reg := put (put (put c.reg n v) 8 0) 11 0, full := false }
    if n = 10 ∧ v = 0 ∧ c.slots ≠ [] then s.shelfFull key else s
  else if n = 11 then s.setStudy key { c with reg := put c.reg 11 (BitVec.ofNat 64 (bits v 0 32)), full := c.full && !v.getLsbD 63 }
  else if n = 12 then s.setStudy key { c with reg := put c.reg 12 (BitVec.ofNat 64 (bits v 0 20)) }
  else if 16 ≤ n ∧ n ≤ 207 then
    s.setStudy key { c with reg := put c.reg n (if (n - 16) % 3 = 0 then v &&& 0xFFFFFFFF00FFFFF3 else v) }
  else s

/-- The bits of an arming register that are writable (R337). -/
def armMask : Nat → W64
  | 3 => 0xFFFFFFFF
  | 4 => 0xFFFFFFFF000007FF
  | 5 => 0x0000FFFFFFFFFFFF
  | 6 => 0x0000FFFFFFFFFFFF
  | _ => 0xFFFFFFFFFFFFFFFF

/-- STUDY op 0 writes a register of one core; a register that the core does not have takes nothing (R363). -/
def State.armWrite (s : State) (key n : Nat) (v : W64) : State :=
  let c := key % 64
  if c < 47 then
    if n = 0 then s.writeCtl key v
    else if n ≤ 6 then
      let co := s.core key
      s.setCore key { co with arm := put co.arm n (v &&& armMask n) }
    else s
  else if 48 ≤ c ∧ c ≤ 51 then s.writeStudy key n v
  else s

/-- A command of an opcode with a byte (STUDY's op, VFCONF's item). -/
def isSub (n i : Nat) (b : List Byte) : Bool := cardByte b 0 == n && cardByte b 8 == i

/-- STUDY op 0 (R370): the firmware core that serves the queue tells the dies (R23, R24). -/
def execStudyArm (vf q : Nat) (s : State) : Out :=
  simpleCmd vf q (isSub 8 0) (fun b s =>
    let ds := (List.range 4).filter fun d => cardByte b 9 / 2 ^ d % 2 == 1
    let cs := (List.range 52).filter fun c => fieldAt b 16 8 / 2 ^ c % 2 == 1
    let s := ds.foldl (fun s d => s.msg (s.writerDie vf q) d) s
    ds.foldl (fun s d => cs.foldl (fun s c => s.armWrite (64 * d + c) (fieldAt b 12 4) (BitVec.ofNat 64 (fieldAt b 24 8))) s) s) s

/-- The group that a STUDY names (R370). -/
def State.namedGroup (s : State) (vf : Nat) (b : List Byte) : Option Nat :=
  (s.groups.find? fun e => e.2.live && e.2.grid == vf * 2 ^ 32 + fieldAt b 12 4 && (s.team e.2.team).lin == fieldAt b 16 8 && e.2.num == cardByte b 24).map
    Prod.fst
/-- A STUDY of a group, whose die is told (R23, R24); one that is not there leaves the op without effect. -/
def studyCmd (vf q op : Nat) (f : State → Nat → State) (s : State) : Out :=
  simpleCmd vf q (isSub 8 op) (fun b s => match s.namedGroup vf b with
    | some k => f (s.msg (s.writerDie vf q) (dieOf (coreOf k))) k
    | none => s) s
/-- STUDY op 1 (R338, R370). -/
def execStudyMark (vf q : Nat) (s : State) : Out := studyCmd vf q 1 (fun s k => s.markGroup k 4) s
/-- STUDY op 2 (R354, R370): a stopped group returns at once. -/
def execStudyReturn (vf q : Nat) (s : State) : Out :=
  studyCmd vf q 2 (fun s k =>
    let g := s.grp k
    if g.study.phase != 2 then s
    else if g.waitMask (· == .stop) != 0 then s.startReturn k 4
    else if g.study.due.isNone then s.setGrp k { g with study := { g.study with due := some 4 } } else s) s
/-- STUDY op 3 (R348, R370). -/
def execStudyResume (vf q : Nat) (s : State) : Out := studyCmd vf q 3 (fun s k => s.upd k fun g => g.endWaits (· == .stop)) s

/-! ### INVAL, ANSWER -/

/-- Drop the translations of a range of an address space from every TLB; length 0 means all (R82, R367). -/
def State.invalRange (s : State) (asn va n : Nat) : State :=
  let hit (e : TlbEnt) : Bool :=
    let lo := e.page * 2 ^ levelShift e.level
    e.asn == asn && (n == 0 || (decide (lo < va + n) && decide (va < lo + 2 ^ levelShift e.level)))
  { s with
    dies := s.dies.map fun (d : Nat × Die) => (d.1, { d.2 with tlb := d.2.tlb.filter fun e => !hit e })
    cores := s.cores.map fun (c : Nat × Core) => (c.1, { c.2 with tlb := c.2.tlb.filter fun e => !hit e }) }
/-- Firmware of a die tells the other working dies, and each answers (R23, R24). -/
def State.tellAll (s : State) (die : Nat) : State :=
  ((List.range 4).filter fun d => (s.die d).inService && (s.die d).online).foldl (fun s d => (s.msg die d).msg d die) s
/-- INVAL (R82, R367). -/
def execInval (vf q : Nat) (s : State) : Out :=
  simpleCmd vf q (isOp 9) (fun b s => (s.tellAll (s.writerDie vf q)).invalRange ((s.asnOf vf).getD 0) (fieldAt b 8 8) (fieldAt b 16 8)) s

/-- A park that an answer names. -/
def Park.named (p : Park) (loc serial : Nat) : Bool := p.sent && p.ans.isNone && p.loc == loc && p.serial == serial
/-- ANSWER (R193, R405, R446): status 4 when nothing matches; a status that the park does not take refuses the command. An answer to a group or
job that is off the device is held. -/
def execAnswer (vf q : Nat) (s : State) : Out :=
  startCmd vf q (isOp 10) (fun s i b =>
    let core := cardByte b 8 * 64 + cardByte b 9
    let slot := cardByte b 10
    let st := cardByte b 11
    let serial := fieldAt b 12 2
    let r0 : W64 := BitVec.ofNat 64 (fieldAt b 16 8)
    let r1 : W64 := BitVec.ofNat 64 (fieldAt b 24 8)
    let no := (s.cmdBegin vf q i 0).cmdDone vf q i 4
    let refuse := s.cmdRefuse vf q i 0x0013 ((s.queue vf q).slotAddr i) 11
    let mine (k : Nat) : Bool := (s.grid k).vf == vf
    if 4 ≤ cardByte b 8 ∨ 64 ≤ cardByte b 9 ∨ 192 ≤ slot then no
    else if slot < 128 then
      let loc := core * 128 + slot
      let hit (e : Nat × Group) : Bool := e.2.live && mine e.2.grid && e.2.park.elim false fun p => p.named loc serial
      match s.groups.find? hit with
      | some e => match e.2.park with
        | some p => if p.takes st then (((s.cmdBegin vf q i 0).msg (s.writerDie vf q) (dieOf (coreOf e.1))).answerGroup e.1 p st r0 r1).cmdDone vf q i 0 else refuse
        | none => no
      | none =>
        match s.teams.findSome? fun t => (t.2.savedGroups.find? hit).map fun e => (t.1, e) with
        | some (t, e) => match e.2.park with
          | some p =>
            if p.takes st then
              let tm := s.team t
              let s := s.setTeam t { tm with savedGroups := tm.savedGroups.map fun (x : Nat × Group) =>
                if x.1 == e.1 then (x.1, { x.2 with park := some { p with ans := some (st, r0, r1) } }) else x }
              (s.cmdBegin vf q i 0).cmdDone vf q i 0
            else refuse
          | none => no
        | none => no
    else
      let loc := 64 * core + (slot - 128)
      let hit (e : Nat × Job) : Bool := mine e.2.grid && e.2.stop.isSome && e.2.ans.isNone && e.2.loc == loc && e.2.serial == serial && e.2.st == .faulted
      let takes := st == 1 || st == 3
      match s.cores.findSome? fun c => (c.2.jobs.find? hit).map fun e => (c.1, e) with
      | some (c, e) => if takes then (((s.cmdBegin vf q i 0).msg (s.writerDie vf q) (dieOf c)).answerJob c e.1 e.2 st).cmdDone vf q i 0 else refuse
      | none =>
        match s.teams.findSome? fun t => (t.2.savedJobs.find? hit).map fun e => (t.1, e) with
        | some (t, e) =>
          if takes then
            let tm := s.team t
            ((s.setTeam t { tm with savedJobs := put tm.savedJobs e.1 { e.2 with ans := some st } }).cmdBegin vf q i 0).cmdDone vf q i 0
          else refuse
        | none => no) s

/-! ### VFCONF (R371) -/

/-- Leaves of a page table below a table of a level: virtual address, physical address, size, entry (R79, R80). -/
def State.leaves (s : State) : Nat → Nat → Nat → List (Nat × Nat × Nat × W64)
  | l, table, va =>
    let n := if l = 0 then 32 else 512
    (List.range n).flatMap fun i =>
      let e : W64 := BitVec.ofNat 64 (leNat (s.mem.dev.readN (table + 8 * i) 8))
      let at_ := va + i * 2 ^ levelShift l
      if e.getLsbD 0 = false then []
      else if e.getLsbD 2 then (if (leafReason l e).isNone then [(at_, bits e 16 36 * 65536, 2 ^ levelShift l, e)] else [])
      else match l with
      | 0 => []
      | k + 1 => s.leaves k (bits e 8 44 * 256) at_
/-- The pages that an address space maps. -/
def State.pagesOf (s : State) (asn : Nat) : List (Nat × Nat × Nat × W64) := match (s.space asn).root with
  | some r => s.leaves 3 r 0
  | none => []
/-- The tables of a page table from a table of a level down: base and size (R79). -/
def State.tablesFrom (s : State) : Nat → Nat → List (Nat × Nat)
  | 0, table => [(table, 256)]
  | k + 1, table => (table, 4096) :: (List.range 512).flatMap fun i =>
    let e : W64 := BitVec.ofNat 64 (leNat (s.mem.dev.readN (table + 8 * i) 8))
    if e.getLsbD 0 && !e.getLsbD 2 then s.tablesFrom k (bits e 8 44 * 256) else []
/-- The device memory that an address space holds: the frames of its pages, and its tables. -/
def State.held (s : State) (asn : Nat) : List (Nat × Nat) :=
  ((s.pagesOf asn).filterMap fun p => if pteTgt p.2.2.2 = 0 then some (p.2.1, p.2.2.1) else none) ++
    ((s.space asn).root.elim [] fun r => s.tablesFrom 3 r)
/-- A 64 KiB frame meets one of some ranges. -/
def frameIn (rs : List (Nat × Nat)) (f : Nat) : Bool := rs.any fun r => decide (r.1 < (f + 1) * 65536) && decide (f * 65536 < r.1 + r.2)
/-- Wipe ranges of device memory: base and size (R380); no cache holds them any more. -/
def State.wipe (s : State) (rs : List (Nat × Nat)) : State :=
  let inside (a : Nat) : Bool := rs.any fun r => decide (r.1 ≤ a) && decide (a < r.1 + r.2)
  { s with mem := { s.mem with dev := s.mem.dev.filter (fun c => !inside c.1), devPx := s.mem.devPx.filter fun x => !inside (x * 32) }
           cores := s.cores.map fun (c : Nat × Core) => (c.1, { c.2 with l1 := c.2.l1.filter fun l => lineHost l.1 || !inside (lineAddr l.1) }.skips fun k => !lineHost k && inside (lineAddr k))
           dies := s.dies.map fun (d : Nat × Die) => (d.1, { d.2 with visitors := d.2.visitors.filter fun l => lineHost l.1 || !inside (lineAddr l.1) }) }
/-- End the parked requests of a region as misses, with a record each (R447). -/
def State.endParked (s : State) (asn region : Nat) : State :=
  (s.preqs.filter fun r => r.2.asn == asn && r.2.msg.region == region && r.2.st == 2).foldl (fun s r =>
    let g := s.grp r.2.grp
    let s := if r.2.wd then s else s.homePush g.grid { s.recOf r.2.grp 2 ⟨0x0A05, 0, 0, 0⟩ 0 (s.groupFlags r.2.grp false false false + 64) with mask := 2 ^ r.2.msg.lane }
    s.answerReq r.1 r.2 (List.replicate 8 0)) s

/-- The 64 KiB frames that ranges of device memory meet. -/
def framesOf (rs : List (Nat × Nat)) : List Nat := rs.flatMap fun r => (List.range ((r.1 + r.2 + 65535) / 65536 - r.1 / 65536)).map (r.1 / 65536 + ·)
/-- Wipe the frames that an address space holds, and with them its tables and its pantry regions (R371, R380): they may be given again once the wipe is
acknowledged (R381). -/
def State.wipeSpace (s : State) (asn : Nat) : State :=
  let rs := s.held asn
  let s := ((s.space asn).regions.map Prod.fst).foldl (fun s r => s.endParked asn r) s
  let s := (s.wipe rs).invalRange asn 0 0
  let s := { s with mod2 := { s.mod2 with wiping := (framesOf rs).foldl (fun l f => insertNat f l) s.mod2.wiping } }
  s.setSpace asn { s.space asn with regions := [] }
/-- A partition is reassigned: every frame that the address spaces of its VFs hold is wiped; between teams its slots, rows and scratchpad hold nothing
(R380, LOG 112). -/
def State.wipePart (s : State) (n : Nat) : State :=
  ((s.vfs.filter fun v => v.2.part == n).filterMap fun v => v.2.asn).foldl State.wipeSpace s

/-- VFCONF item 0 (R194, R371). -/
def execVfconfTrapVector (vf q : Nat) (s : State) : Out :=
  simpleCmd vf q (isSub 11 0) (fun b s => s.setVf vf { s.vf vf with vector := BitVec.ofNat 64 (fieldAt b 16 8) }) s
/-- A ring that VFCONF sets keeps the records that it holds back. -/
def ringSet (r : Ring) (b : List Byte) : Ring := { base := fieldAt b 16 8, size := fieldAt b 24 4, set := true, prod := 0, cons := 0, held := r.held }
/-- VFCONF item 1 (R375). -/
def execVfconfServiceRing (vf q : Nat) (s : State) : Out :=
  simpleCmd vf q (isSub 11 1) (fun b s => (s.setVf vf { s.vf vf with svc := ringSet (s.vf vf).svc b }).svcFlush vf) s
/-- VFCONF item 2 (R402): the physical function's ring is not set by it. -/
def execVfconfErrorRing (vf q : Nat) (s : State) : Out :=
  simpleCmd vf q (isSub 11 2) (fun b s => if vf = 128 then s else (s.setVf vf { s.vf vf with err := ringSet (s.vf vf).err b }).errFlush vf) s
/-- VFCONF item 3 (R371). -/
def execVfconfPriorityCap (vf q : Nat) (s : State) : Out :=
  simpleCmd vf q (isSub 11 3) (fun b s => s.setVf (cardByte b 9) { s.vf (cardByte b 9) with maxprio := cardByte b 10 }) s
/-- VFCONF item 4 (R308). -/
def execVfconfSliceLength (vf q : Nat) (s : State) : Out :=
  simpleCmd vf q (isSub 11 4) (fun b s => s.setPart (cardByte b 9) { s.part (cardByte b 9) with slice := fieldAt b 24 4 }) s
/-- VFCONF item 5 (R79, R321, R371, R380): a change wipes what the former binding held. A number bound again to another root keeps its generation and
its planes (LOG 130). -/
def execVfconfAddressSpace (vf q : Nat) (s : State) : Out :=
  simpleCmd vf q (isSub 11 5) (fun b s =>
    let v := cardByte b 9
    let n := fieldAt b 12 4
    let root := fieldAt b 16 8
    let s := match (s.vf v).asn with
      | some m => if m = n ∧ (s.space n).root = some root then s else s.wipeSpace m
      | none => s
    let s := if (s.space n).root = some root then s else (s.invalRange n 0 0).setSpace n { s.space n with root := some root }
    s.setVf v { s.vf v with asn := some n }) s
/-- VFCONF item 6 (R371, R380, R388). -/
def execVfconfPartition (vf q : Nat) (s : State) : Out :=
  simpleCmd vf q (isSub 11 6) (fun b s =>
    let v := cardByte b 9
    let s := if (s.vf v).part = cardByte b 10 then s else match (s.vf v).asn with
      | some m => s.wipeSpace m
      | none => s
    s.setVf v { s.vf v with part := cardByte b 10 }) s

/-- Frames that firmware may give to a partition on a die (R381, R390, R441), the highest first: of a colour of its mask, neither given nor retired, in no
page or table of an address space, and wiped. -/
def State.freeFrames (s : State) (p d : Nat) : List Nat :=
  let colour := (s.part p).colour
  let mapped := s.spaces.flatMap fun x => s.held x.1
  (s.mod2.free.reverse.flatMap fun r => ((List.range (r.2 + 1 - r.1)).map fun i => r.2 - i)).filter fun f =>
    homeDie (f * 65536) == d && colour.getLsbD (f % 64) && !s.mod2.taken.contains f && !s.mod2.wiping.contains f && !frameIn mapped f &&
      !(s.mem.dev.any fun c => c.1 / 65536 == f) && !(s.mem.devPx.any fun x => x / 2048 == f) && !(s.mem.found.any fun x => x / 2048 == f) && !s.mod_.nv.retired.any fun r => r.2 == f

/-- Map a 64 KiB page, with frames for the tables that are missing; none when they do not suffice (R79). -/
def State.mapPage (s : State) (va : Nat) (pte : W64) (spare : List Nat) : Nat → Nat → Option (State × List Nat)
  | l, table =>
    let a := table + 8 * levelIndex l va
    let put8 (s : State) (x : Nat) : State := { s with mem := { s.mem with dev := s.mem.dev.writeN a (leBytes 8 x) } }
    match l with
    | 0 => some (put8 s pte.toNat, spare)
    | k + 1 =>
      let e : W64 := BitVec.ofNat 64 (leNat (s.mem.dev.readN a 8))
      if e.getLsbD 0 then (if e.getLsbD 2 then none else s.mapPage va pte spare k (bits e 8 44 * 256))
      else match spare with
      | [] => none
      | f :: t => (put8 s (f * 65536 + 1)).mapPage va pte t k (f * 65536)

/-- Map pages from `va` on to frames. -/
def State.mapPages (s : State) (root va : Nat) (spare : List Nat) : List Nat → Option (State × List Nat)
  | [] => some (s, spare)
  | f :: t => match s.mapPage va (BitVec.ofNat 64 (f * 65536 + 0x87)) spare 3 root with
    | some (s, spare) => s.mapPages root (va + 65536) spare t
    | none => none

/-- Allocate a pantry region of n units of 768 KiB (R265, R371, R381, R390): the byte offset of the failing field, or the state. -/
def State.pantryAlloc (s : State) (vf start n : Nat) : Except Nat State :=
  let asn := (s.asnOf vf).getD 0
  match (s.space asn).root with
  | none => .error 16
  | some root =>
    let size := n * 786432
    let mapped := (List.range (12 * n)).any fun i => match s.walk (some asn) (start + i * 65536) with
      | .bad _ 0 => false
      | _ => true
    if 2 ^ 47 < start + size ∨ mapped then .error 16
    else
      let p := (s.vf vf).part
      let want := [2 * n, 2 * n, 4 * n, 4 * n]
      let got := want.zipIdx.map fun w => (s.freeFrames p w.2).take w.1
      if (got.zip want).any fun x => x.1.length != x.2 then .error 24
      else
        let frames := got.flatMap id
        let spare := ((List.range 4).flatMap fun d => s.freeFrames p d).filter fun f => !frames.contains f
        match s.mapPages root start spare frames with
        | none => .error 24
        | some (s, rest) =>
          let used := frames ++ spare.take (spare.length - rest.length)
          let s := { s with mod2 := { s.mod2 with taken := used ++ s.mod2.taken } }
          let sp := s.space asn
          .ok (s.setSpace asn { sp with regions := put sp.regions start { size := size, items := [], frames := frames } })

/-- VFCONF item 7 (R265, R371). -/
def execVfconfPantryAllocate (vf q : Nat) (s : State) : Out :=
  startCmd vf q (isSub 11 7) (fun s i b =>
    match s.pantryAlloc vf (fieldAt b 16 8) (fieldAt b 24 4) with
    | .error off => s.cmdRefuse vf q i 0x0013 ((s.queue vf q).slotAddr i) off
    | .ok s => (s.cmdBegin vf q i 0).cmdDone vf q i 0) s

/-- Unmap a 64 KiB page (R371). -/
def State.unmapPage (s : State) (va : Nat) : Nat → Nat → State
  | l, table =>
    let a := table + 8 * levelIndex l va
    match l with
    | 0 => { s with mem := { s.mem with dev := s.mem.dev.writeN a (leBytes 8 0) } }
    | k + 1 =>
      let e : W64 := BitVec.ofNat 64 (leNat (s.mem.dev.readN a 8))
      if e.getLsbD 0 && !e.getLsbD 2 then s.unmapPage va k (bits e 8 44 * 256) else s

/-- VFCONF item 8 (R266, R371, R381, R447): the frames are to be wiped before they are given again. -/
def execVfconfPantryFree (vf q : Nat) (s : State) : Out :=
  simpleCmd vf q (isSub 11 8) (fun b s =>
    let asn := (s.asnOf vf).getD 0
    let start := fieldAt b 16 8
    match get? (s.space asn).regions start with
    | none => s
    | some r =>
      let s := s.endParked asn start
      let root := ((s.space asn).root).getD 0
      let s := (List.range (r.size / 65536)).foldl (fun s i => s.unmapPage (start + i * 65536) 3 root) s
      let s := s.invalRange asn start r.size
      let sp := s.space asn
      let s := s.setSpace asn { sp with regions := drop sp.regions start }
      { s with mod2 := { s.mod2 with wiping := s.mod2.wiping ++ r.frames } }) s

/-! ### WQCONF (R374) -/

/-- WQCONF create (R374). -/
def execWqconfCreate (vf q : Nat) (s : State) : Out :=
  simpleCmd vf q (fun b => isOp 12 b && cardByte b 9 == 0) (fun b s =>
    s.setWq vf (cardByte b 8) { base := fieldAt b 16 8, size := fieldAt b 12 4, head := 0, tail := 0, line := [] }) s
/-- WQCONF destroy (R367). -/
def execWqconfDestroy (vf q : Nat) (s : State) : Out :=
  simpleCmd vf q (fun b => isOp 12 b && cardByte b 9 == 1) (fun b s => s.setVf vf { s.vf vf with wqs := drop (s.vf vf).wqs (cardByte b 8) }) s

/-! ### Doorbells and control blocks (R362, R365, R464, R466) -/

/-- The host reaches the registers: the link is up and the module is past verification (R377, R461). -/
def State.mmio (s : State) : Bool := (s.mod_.stage == 1 || s.mod_.stage == 2) && s.mod_.link.state < 2

/-- The hub forwards a register write to the die whose firmware core serves a queue (R24, R372). -/
def State.tellServer (s : State) (vf q : Nat) : State := match s.serverDie vf q with
  | some d => s.msg 4 d
  | none => s
/-- A doorbell write that firmware takes (R365, R404). -/
def State.takeDoorbell (s : State) (vf q v : Nat) : State :=
  let s := s.tellServer vf q
  let x := s.queue vf q
  if !x.cb.enabled then s
  else if x.cb.tail ≤ v ∧ v ≤ x.cb.done + x.cb.size then s.fetchTo vf q (some v)
  else s.excPush vf q (s.cmdRec vf 1 v x.cb.tail [])
/-- A doorbell write; the hub latches it while the queue's firmware core reloads (R466). -/
def State.ring (s : State) (vf q : Nat) (v : W64) : State :=
  if s.fwServes vf q then s.takeDoorbell vf q v.toNat else s.setQueue vf q { s.queue vf q with latched := some v }
/-- DOORBELL (R365). -/
def execDoorbell (vf q : Nat) (v : W64) (s : State) : Out := if s.mmio && decide (q < 16) && decide (vf ≤ 128) then .next (s.ring vf q v) else .next s

/-- A block that a QCBADDR write finds valid (R464). -/
def Qcb.valid (b : Qcb) : Bool := b.base % 64 == 0 && b.exbase % 64 == 0 && isPow2 16 65536 b.size && isPow2 16 4096 b.exsize
/-- A QCBADDR write (R362, R364, R395, R464). -/
def State.setQcb (s : State) (vf q : Nat) (v : W64) : State :=
  let s := s.tellServer vf q
  let x := s.queue vf q
  if x.cb.enabled && decide (x.cb.done < x.cb.tail) then s
  else
    let off : Queue := { addr := v, held := x.held }
    if v = 0 then s.setQueue vf q off
    else
    let g := s.fwGet (s.writerDie vf q) vf q v.toNat 64
    let s := g.2
    let off := { off with held := (s.queue vf q).held }
    match g.1.map Qcb.ofBytes with
    | some b =>
      if b.valid then
        let s := s.setVf vf { s.vf vf with contained := false }
        let s := s.setQueue vf q { off with cb := b, ack := b.exprod }
        let s := s.blockUpdate vf q fun c => { c with head := c.done, enabled := true, stopped := false }
        (s.excFlush vf q off.held).fetchCmds vf q
      else (s.setQueue vf q off).errPush vf (s.cmdRec vf 0x000B v.toNat 0 [])
    | none => (s.setQueue vf q off).errPush vf (s.cmdRec vf 0x000B v.toNat 0 [])
/-- QCBADDR (R364). -/
def execQcbaddr (vf q : Nat) (v : W64) (s : State) : Out := if s.mmio && decide (q < 16) && decide (vf ≤ 128) then .next (s.setQcb vf q v) else .next s

/-- SVCCONS (R375). -/
def State.setSvcCons (s : State) (vf : Nat) (v : W64) : State := (s.setVf vf { s.vf vf with svc := { (s.vf vf).svc with cons := v.toNat } }).svcFlush vf
/-- SVCCONS (R375). -/
def execSvccons (vf : Nat) (v : W64) (s : State) : Out := if s.mmio && decide (vf ≤ 128) then .next (s.setSvcCons vf v) else .next s
/-- ERRCONS; in the physical function's window the write is ignored (R362, R402). -/
def State.setErrCons (s : State) (vf : Nat) (v : W64) : State :=
  if 128 ≤ vf then s else (s.setVf vf { s.vf vf with err := { (s.vf vf).err with cons := v.toNat } }).errFlush vf
/-- ERRCONS (R402). -/
def execErrcons (vf : Nat) (v : W64) (s : State) : Out := if s.mmio then .next (s.setErrCons vf v) else .next s

/-! ### Answers to a stopped queue (R403, R404, R464) -/

/-- The host acknowledges records (R403). -/
def State.exAck (s : State) (vf q : Nat) (ack : W32) : State :=
  let x := s.queue vf q
  let base := x.cb.exprod / 2 ^ 32 * 2 ^ 32 + ack.toNat
  let n := if x.cb.exprod < base ∧ 2 ^ 32 ≤ x.cb.exprod then base - 2 ^ 32 else base
  (s.setQueue vf q { x with ack := max x.ack n }).excFlush vf q x.held
/-- The queue runs again, and with it its VF (R406, LOG 143). -/
def State.unstopQueue (s : State) (vf q : Nat) : State :=
  let s := s.setVf vf { s.vf vf with contained := false }
  (s.setQueue vf q { s.queue vf q with unread := false }).blockUpdate vf q fun c => { c with stopped := false }
/-- The refused command that stopped a queue. -/
def Queue.refusedCmd (x : Queue) : Option (Nat × Cmd) := x.cmds.find? fun e => e.2.refused && e.2.status.isNone
/-- A second command that has been refused keeps the queue stopped when the first has its answer (R404). -/
def State.unstopBut (s : State) (vf q i : Nat) : State :=
  if (s.queue vf q).cmds.any fun e => e.1 != i && e.2.refused && e.2.status.isNone then s else s.unstopQueue vf q
/-- EXANS resume (R404, R464): the stopped command is fetched again. -/
def State.exResume (s : State) (vf q : Nat) : State :=
  let x := s.queue vf q
  if !x.cb.stopped then s
  else match x.refusedCmd with
  | none => (s.unstopQueue vf q).fetchCmds vf q
  | some (i, _) =>
    let g := s.fwGet (s.writerDie vf q) vf q (x.slotAddr i) 64
    let s := g.2
    match g.1 with
    | none => s.excPush vf q (s.cmdRec vf 0x000C (x.slotAddr i) 0 [])
    | some b =>
      let x := s.queue vf q
      ((s.setQueue vf q { x with cmds := put x.cmds i { bytes := b } }).unstopBut vf q i).fetchCmds vf q
/-- A command that was never read, as it is counted (R404). -/
def lostCmd : Cmd := { bytes := zeros 64, started := true }
/-- EXANS skip (R404, R464). -/
def State.exSkip (s : State) (vf q : Nat) : State :=
  let x := s.queue vf q
  if !x.cb.stopped then s
  else match x.refusedCmd with
  | some (i, _) => (s.unstopBut vf q i).cmdDone vf q i 2
  | none =>
    if x.unread then
      let s := (s.setQueue vf q { x with cmds := put x.cmds x.cb.head lostCmd }).unstopQueue vf q
      (s.blockUpdate vf q fun c => { c with head := c.head + 1 }).cmdDone vf q x.cb.head 2
    else (s.unstopQueue vf q).fetchCmds vf q
/-- The APPENDs among some commands leave the lines of the work queues (R251). -/
def State.unlineAppends (s : State) (vf q : Nat) (is : List Nat) : State :=
  let keeps (r : WqReq) : Bool := match r.cmd with
    | some c => !(c.1 == q && is.contains c.2)
    | none => true
  s.setVf vf { s.vf vf with wqs := (s.vf vf).wqs.map fun w => (w.1, { w.2 with line := w.2.line.filter keeps }) }
/-- EXANS abort (R404): the stopped command and every one behind it end with status 3. -/
def State.exAbort (s : State) (vf q : Nat) : State :=
  let x := s.queue vf q
  if !x.cb.stopped then s
  else
    let from_ := match x.refusedCmd with
      | some (i, _) => i
      | none => if x.unread then x.cb.head else (x.nextCmd.map Prod.fst).getD x.cb.head
    let is := ((List.range (x.cb.tail - from_)).map (from_ + ·)).filter fun i => ((get? x.cmds i).bind Cmd.status).isNone
    let cmds := is.foldl (fun m i => put m i { (get lostCmd m i) with started := true }) x.cmds
    let s := (s.setQueue vf q { x with cmds := cmds }).unstopQueue vf q
    let s := s.blockUpdate vf q fun c => { c with head := c.tail }
    is.foldl (fun s i => s.cmdDone vf q i 3) (s.unlineAppends vf q is)
/-- A write to EXANS that the module takes. -/
def exansWrite (f : State → State) (vf q : Nat) (ack : W32) (s : State) : Out :=
  if s.mmio && decide (q < 16) && decide (vf ≤ 128) then .next (f ((s.tellServer vf q).exAck vf q ack)) else .next s
/-- EXANS with ACT 00 (R403). -/
def execExansAcknowledge (vf q : Nat) (ack : W32) (s : State) : Out := exansWrite (fun s => s) vf q ack s
/-- EXANS with ACT 01 (R404). -/
def execExansResume (vf q : Nat) (ack : W32) (s : State) : Out := exansWrite (fun s => s.exResume vf q) vf q ack s
/-- EXANS with ACT 10 (R404). -/
def execExansSkip (vf q : Nat) (ack : W32) (s : State) : Out := exansWrite (fun s => s.exSkip vf q) vf q ack s
/-- EXANS with ACT 11 (R404). -/
def execExansAbort (vf q : Nat) (ack : W32) (s : State) : Out := exansWrite (fun s => s.exAbort vf q) vf q ack s

/-! ### Registers of the physical function -/

/-- PFERRBASE or PFERRSIZE (R402): both counters are reset, and held records are written once the ring is set. -/
def State.setPfRing (s : State) (size : Bool) (v : W64) : State :=
  let r := s.mod2.pfErr
  let r : Ring := if size then { r with size := v.toNat } else { r with base := v.toNat }
  let ok := r.base != 0 && r.base % 64 == 0 && isPow2 16 65536 r.size
  { s with mod2 := { s.mod2 with pfErr := { r with prod := 0, cons := 0, set := ok } } }.pfFlush
/-- PFERRBASE and PFERRSIZE (R402). -/
def execPfErrorRingSet (size : Bool) (v : W64) (s : State) : Out := if s.mmio then .next (s.setPfRing size v) else .next s
/-- PFERRCONS (R402). -/
def State.setPfCons (s : State) (v : W64) : State := { s with mod2 := { s.mod2 with pfErr := { s.mod2.pfErr with cons := v.toNat } } }.pfFlush
/-- PFERRCONS (R402). -/
def execPferrcons (v : W64) (s : State) : Out := if s.mmio then .next (s.setPfCons v) else .next s

/-- A cut begins (R393, R394): the grids of the named VFs are pre-empted, and a marker goes out on every port. -/
def State.cutStart (s : State) (id : W32) : State :=
  let s := { s with mod_ := { s.mod_ with cutId := id } }
  if s.mod_.cutState = 1 ∨ s.mod_.cutState = 2 then s
  else
    let s := s.cutTo 1
    let ks := (s.grids.filter fun e => s.isCut e.2.vf && s.running (s.partOf e.2) e).map Prod.fst
    let s := ks.foldl State.preempt s
    let h := s.die 4
    (s.setDie 4 { h with count := h.count + BitVec.ofNat 64 s.mod2.ports.length }).cutCheck
/-- CUT (R394). -/
def execCut (id : W32) (s : State) : Out := if s.mmio then .next (s.cutStart id) else .next s
/-- A cut ends (R393): held flits are delivered, and the grids go on when they are placed. -/
def State.cutEnd (s : State) (id : W32) : State :=
  let s := { s with mod_ := { s.mod_ with cutId := id } }
  if s.mod_.cutState = 2 then ({ s with mod2 := { s.mod2 with markers := [] } }.cutTo 3).cutCheck else s
/-- CUT with CMD 10 (R393). -/
def execCutResume (id : W32) (s : State) : Out := if s.mmio then .next (s.cutEnd id) else .next s

/-- The ranges of a partition register are within bounds (R388). -/
def partFits (v : W64) : Bool := [0, 10, 20, 30].all fun lo => decide ((partRange v lo).2 ≤ 16) && decide ((partRange v lo).1 + (partRange v lo).2 ≤ 16)
/-- Ranges of two partitions overlap; an empty one meets none. -/
def partsMeet (a b : W64) : Bool := [0, 10, 20, 30].any fun lo =>
  decide (0 < (partRange a lo).2) && decide (0 < (partRange b lo).2) &&
  decide ((partRange a lo).1 < (partRange b lo).1 + (partRange b lo).2) && decide ((partRange b lo).1 < (partRange a lo).1 + (partRange a lo).2)
/-- Write PARTn (R380, R388, R433): it takes effect when no team of the partition is placed and no enabled ranges overlap; grids that no longer fit are
contained. -/
def State.writePart (s : State) (n : Nat) (v : W64) : State :=
  let v := BitVec.ofNat 64 (bits v 0 41)
  let busy := s.teams.any fun e => e.2.live && s.partOf (s.grid e.2.grid) == n
  let clash := v.getLsbD 40 && s.parts.any fun e => e.1 != n && e.2.reg.getLsbD 40 && partsMeet v e.2.reg
  if busy || !partFits v || clash then s
  else
    let s := (if (s.part n).reg = v then s else s.wipePart n).setPart n { s.part n with reg := v }
    let lost := (s.grids.filter fun e => !e.2.run.done && s.partOf e.2 == n && !s.fitsEmpty e.2).map Prod.fst
    lost.foldl (fun s k => if (s.grid k).run.done then s else (s.contPush k (s.gridRec k 0 3 0x0C04 0 12)).containGrid k 1) s
/-- PARTn (R388). -/
def execPartWrite (n : Fin 16) (v : W64) (s : State) : Out := if s.mmio then .next (s.writePart n.val v) else .next s

/-- A write to a register of the physical function at or above 0x10_0000 (R388, R391, R393, R402, R429, R471); read-only and unlisted ones ignore
it. A WEARLIM that is written reaches the non-volatile store at once (LOG 102). -/
def State.writePf (s : State) (off : Nat) (v : W64) : State :=
  let o := off - 0x100000
  let vfQ := (o - 0x400) / 16
  if o < 0x80 then s.writePart (o / 8) v
  else if o < 0x100 then s.setPart ((o - 0x80) / 8) { s.part ((o - 0x80) / 8) with colour := v }
  else if 0x400 ≤ o ∧ o < 0xC00 then
    if o % 16 = 0 then s.setVf vfQ { s.vf vfQ with quota0 := v &&& 0x01FFFFFFFFFFE07F } else s.setVf vfQ { s.vf vfQ with quota1 := v &&& 0x7FFFFFFFFF }
  else if o = 0xC00 then
    let id : W32 := v.extractLsb' 32 32
    if bits v 0 2 = 1 then s.cutStart id else if bits v 0 2 = 2 then s.cutEnd id else { s with mod_ := { s.mod_ with cutId := id } }
  else if o = 0xC10 then { s with mod_ := { s.mod_ with cutMask0 := v } }
  else if o = 0xC18 then { s with mod_ := { s.mod_ with cutMask1 := v } }
  else if 0xC40 ≤ o ∧ o < 0xCC0 then s.setPart ((o - 0xC40) / 8) { s.part ((o - 0xC40) / 8) with wdog := v &&& 0x01FFFFFF0000FFFF }
  else if o = 0xD08 then { s with mod_ := { s.mod_ with nv := { s.mod_.nv with wearlim := v } } }
  else if o = 0xD20 then s.setPfRing false v
  else if o = 0xD28 then s.setPfRing true v
  else if o = 0xD38 then s.setPfCons v
  else s

/-- A write to a register of a window (R362, R403). -/
def State.writeWindow (s : State) (vf off : Nat) (v : W64) : State :=
  if off < 0x80 then s.ring vf (off / 8) v
  else if 0x200 ≤ off ∧ off < 0x280 then s.setQcb vf ((off - 0x200) / 8) v
  else if off = 0x408 then s.setSvcCons vf v
  else if off = 0x428 then s.setErrCons vf v
  else if off = 0x430 then if vf = 128 then s else s.setVf vf { s.vf vf with c0 := v.getLsbD 0 }
  else if 0x600 ≤ off ∧ off < 0x680 then
    let q := (off - 0x600) / 8
    let s := (s.tellServer vf q).exAck vf q (v.extractLsb' 32 32)
    match bits v 0 2 with
    | 1 => s.exResume vf q
    | 2 => s.exSkip vf q
    | 3 => s.exAbort vf q
    | _ => s
  else s

/-- REGISTER_WRITE (R6, R7, R362): a 64-bit write at an offset of a window; 128 is the physical function's. -/
def execRegisterWrite (vf off : Nat) (v : W64) (s : State) : Out :=
  if !s.mmio || off % 8 != 0 || decide (128 < vf) then .next s
  else if off < 0x10000 then .next (s.writeWindow vf off v)
  else if vf = 128 ∧ 0x100000 ≤ off ∧ off < 0x101000 then .next (s.writePf off v)
  else .next s

/-! ### The aperture (R75, R292, R361, R367, R472) -/

/-- A host access that translation or a page refuses. -/
def State.apertureRefused (s : State) (vf va n acc : Nat) : State :=
  s.errPush vf (s.cmdRec vf 0x0015 va (n % 256 + acc * 256) [])
/-- HOST_APERTURE_WRITE (R292, R472). -/
def execHostApertureWrite (vf : Nat) (va : W64) (data : List Byte) (s : State) : Out :=
  if !s.mmio then .next s
  else match s.fwBytes (s.asnOf vf) true va.toNat data.length with
  | .error _ => .next (s.apertureRefused vf va.toNat data.length 1)
  | .ok as => .next (((diesOf as).foldl (fun s d => s.msg 4 d) s).fwPut (s.asnOf vf) as data)
/-- An answer to a read of the host's leaves in a flit (R361). -/
def State.answerHost (s : State) (bytes : List Byte) (mark : ApMark) : State :=
  let l := s.mod_.link
  let a : ApAnswer := { flit := l.sent + l.held, bytes := bytes, mark := mark }
  { s with mod_ := { s.mod_ with link := { l with answers := l.answers ++ [a] } } }.sendFlit
/-- HOST_APERTURE_READ (R438, R472): the bytes, with the link's poison marker where one of them is poisoned, or an error completion. -/
def execHostApertureRead (vf : Nat) (va : W64) (n : Nat) (s : State) : Out :=
  if !s.mmio then .next s
  else match s.fwBytes (s.asnOf vf) false va.toNat n with
  | .error _ => .next ((s.apertureRefused vf va.toNat n 0).answerHost [] .refused)
  | .ok as =>
    let bs := as.map fun a => s.directByte a 0
    .next ((((diesOf as).foldl (fun s d => (s.msg 4 d).msg d 4) s).homeUse as).answerHost (bs.map Prod.fst) (if bs.any Prod.snd then .poison else .sound))

end Sys2Proof.Machine
end

