-- ==== Sys2Proof/Machine/ModuleEv.lean ====
section
/-! DEFINITION. The module as a whole: the Chikar link (R461 to R463), staged start (R377 to R379, R468 to R470), wipe (R380, R381), wear (R382,
R383, R471), firmware cores (R466, R467), power; the values that registers read (R362, R363). -/

namespace Sys2Proof.Machine

/-- Apply a function to the link. -/
def State.updLink (s : State) (f : Link → Link) : State := { s with mod_ := { s.mod_ with link := f s.mod_.link } }
/-- A count that saturates at n bits. -/
def satInc (n x : Nat) : Nat := if x + 1 < 2 ^ n then x + 1 else 2 ^ n - 1
/-- A record of the hub die. -/
def State.hubRec (s : State) (cls kind addr aux : Nat) : Rec :=
  { cls := cls, kind := kind, flags := flagBits false false false false false false 3, addr := addr, aux := aux, count := (s.die 4).count.toNat }

/-! ### Reset -/

/-- The module after a reset (R380): every memory of the module is wiped; what the non-volatile store keeps, the memory of the host, and the
model's own fields stay. -/
def State.resetModule (s : State) : State :=
  { State.reset with
    mem := { host := s.mem.host }
    mod_ := { nv := s.mod_.nv, wear := s.mod_.nv.wear.map fun (w : Nat × Wear) => (w.1, { w.2 with rising := false, ext := none }) }
    agenda := s.agenda, fresh := s.fresh, ids := s.ids, decls := s.decls }

/-- Records that rings and exception queues hold back are kept when the link goes down, or the module is reset while it retrains (R402, R456). -/
def State.keepHeld (s : State) : State :=
  let held := s.vfs.flatMap (fun v => v.2.queues.flatMap (fun q => q.2.held) ++ v.2.err.held) ++ s.mod2.pfErr.held
  held.foldl State.keep s
/-- A fatal fault (R396, R401, R406): a record for each VF, the full record for the physical function, and the module is contained by a reset. -/
def State.fatal (s : State) (kind : Nat) : State :=
  let r := s.hubRec 4 kind 0 0
  let s := if s.linkUp then s else s.keepHeld
  let s := (s.vfs.filter fun v => v.1 < 128 && v.2.asn.isSome).foldl (fun s v => s.errPush v.1 { r with vf := v.1, part := v.2.part }) s
  let s := s.pfPush r
  (if s.linkUp && s.linkHeld then s.keepHeld else s).resetModule

/-! ### Wider containment (R406, LOG 114) -/

/-- A VF is contained, with records of a class (R406 step 4): every grid of it with completion status 3 (R405), and its queues stop. A class 3 record goes to the home
queue of its first grid too (R401). One that is contained already writes nothing further (R407, LOG 143). -/
def State.containVf (s : State) (vf cls kind : Nat) : State :=
  if (s.vf vf).contained then s
  else
    let ks := (s.grids.filter fun e => e.2.vf == vf && !e.2.run.done).map Prod.fst
    let r : Rec := { s.hubRec cls kind 0 0 with vf := vf, part := (s.vf vf).part }
    let s := s.containAll (ks.map fun k => (k, 3, none))
    let s := match ks.head? with
      | some k => if cls = 3 then s.homePush k r else s
      | none => s
    let s := s.errPush vf r
    let s := s.setVf vf { s.vf vf with contained := true }
    ((s.vf vf).queues.map Prod.fst).foldl (fun s q => s.blockUpdate vf q fun c => { c with stopped := true }) s
/-- A partition is contained (R406 step 5): each VF of it, with class 4 records for those of a list, and its rows are wiped. -/
def State.containPart (s : State) (p kind : Nat) (fatal : List Nat) : State :=
  let s := ((s.vfs.filter fun v => decide (v.1 < 128) && v.2.part == p).map Prod.fst).foldl (fun s v => s.containVf v (if fatal.contains v then 4 else 3) kind) s
  { s with groups := s.groups.filter fun g => !(s.partOf (s.gridOf g.2) == p && decide ((s.gridOf g.2).vf < 128)) }
/-- A VF has state on a die: a team there, also one that is saved, or frames of its address space in the die's stacks (LOG 114). -/
def State.vfOn (s : State) (d : Nat) (v : Nat × Vf) : Bool :=
  s.teams.any (fun e => dieOf e.2.core == d && (s.grid e.2.grid).vf == v.1) || v.2.asn.elim false fun n => (s.held n).any fun r => homeDie r.1 == d
/-- A die can no longer keep its promises (R396, R401, R406 step 6): every partition with state on it is contained, with a class 4 record for each VF on it and
the full record for the physical function, and the die leaves placement. One that has left it writes nothing further (R407). -/
def State.containDie (s : State) (d kind : Nat) : State :=
  if !(s.die d).online then s
  else
    let on := s.vfs.filter fun v => decide (v.1 < 128) && s.vfOn d v
    let s := ((List.range 16).filter fun p => on.any fun v => v.2.part == p).foldl (fun s p => s.containPart p kind (on.map Prod.fst)) s
    (s.setDie d { s.die d with online := false }).pfPush { s.hubRec 4 kind 0 0 with die := d }

/-- MODULE_RESET (R380). -/
def execModuleReset (s : State) : Out := .next s.resetModule

/-! ### The link (R461 to R463) -/

/-- The link retrains (R462). -/
def State.retrainStart (s : State) : State :=
  (s.updLink fun l => { l with state := 2, retrain := satInc 16 l.retrain, fails := (0, 0) }).pfPush (s.hubRec 0 8 0 0)

/-- A flit that the receiver does not take (R462). -/
def State.rejectFlit (s : State) (tag : Bool) : State :=
  let s := s.pfPush (s.hubRec 0 7 0 0)
  s.updLink fun l => { l with crc := satInc 24 l.crc, nak := true, tagFails := if tag then l.tagFails + 1 else l.tagFails }

/-- A flit names a key slot that holds no key, or has failed its tag for the third time: the link goes down and both slots are cleared (R462). -/
def State.keyFault (s : State) : State := (s.updLink fun l => { l with state := 3, keys := (false, false) }).fatal 0x000A

/-- LINK_FLIT_RECEIVE (R462): the flit that is expected is taken or rejected; after a rejection every other flit is discarded. -/
def execLinkFlitReceive (flit : Nat) (crcOk tagOk key : Bool) (s : State) : Out :=
  let l := s.mod_.link
  if l.state = 3 ∨ flit ≠ l.expect then .next s
  else if !crcOk then .next (s.rejectFlit false)
  else if !(if key then l.keys.2 else l.keys.1) then .next s.keyFault
  else if !tagOk then (if 2 ≤ l.tagFails then .next (s.rejectFlit true).keyFault else .next (s.rejectFlit true))
  else .next (s.updLink fun l => { l with expect := l.expect + 1, nak := false, tagFails := 0 })

/-- LINK_NAK_RECEIVE (R462): the sender replays from the flit, in order, each with its key slot; the eighth failure in a row retrains. -/
def execLinkNakReceive (flit : Nat) (s : State) : Out :=
  let l := s.mod_.link
  if l.state = 3 ∨ !(l.buffer.any fun b => b.1 == flit) then .next s
  else
    let n := if l.fails.1 = flit then l.fails.2 + 1 else 1
    let s := s.updLink fun l => { l with replay := satInc 16 l.replay, fails := (flit, n), state := if l.state = 0 then 1 else l.state }
    if 8 ≤ n then .next s.retrainStart else .next s

/-- The old key slot is released once the buffer has been acknowledged past the rollover flit (R463). -/
def Link.release (l : Link) (flit : Nat) : Link :=
  match l.roll with
  | some r => if r ≤ flit then { l with keypend := false, roll := none, keys := if l.actkey then (false, l.keys.2) else (l.keys.1, false) } else l
  | none => l
/-- Flits that were held go out while the buffer has room (R462). -/
def State.sendHeld (s : State) : State :=
  let l := s.mod_.link
  let n := if 2 ≤ l.state then 0 else min l.held (128 - l.buffer.length)
  (List.range n).foldl (fun s _ => s.sendFlit) (s.updLink fun l => { l with held := l.held - n })
/-- LINK_ACK_RECEIVE (R462, R463): flits up to the acknowledged one leave the buffer, and held ones follow. -/
def execLinkAckReceive (flit : Nat) (s : State) : Out :=
  let l := s.mod_.link
  if l.state = 3 ∨ l.sent ≤ flit then .next s
  else .next (s.updLink fun l => { (l.release flit) with
    buffer := l.buffer.filter fun b => decide (flit < b.1)
    answers := l.answers.filter fun a => decide (flit < a.flit)
    state := if l.state = 1 ∧ l.fails.1 ≤ flit then 0 else l.state
    fails := if l.fails.1 ≤ flit then (0, 0) else l.fails }).sendHeld

/-- LINK_ACK_TIMEOUT (R462). -/
def execLinkAckTimeout (s : State) : Out :=
  let l := s.mod_.link
  if l.state = 3 ∨ l.state = 2 ∨ l.buffer = [] then .next s else .next s.retrainStart

/-- The results of a full training that succeeds are written to the store (R379). -/
def State.trained (s : State) (unit : Nat) (t : Training) : State :=
  if t ≠ .full then s
  else
    let nv := s.mod_.nv
    { s with mod_ := { s.mod_ with nv := { nv with results := put nv.results unit (Config.trainResult s.fresh) } }, fresh := s.fresh + 1 }

/-- A unit's training (R379, R470): a rejected stored result is counted and reported, and a full training's replaces it. -/
def State.fallback (s : State) (unit : Nat) (t : Training) : State :=
  let s := s.trained unit t
  if t = .stored then s else { s with mod_ := { s.mod_ with fallbk := min 255 (s.mod_.fallbk + 1) } }.pfPush (s.hubRec 0 0x000F 0 0)

/-- What was written to host memory while the link retrained reaches it (R462). -/
def State.landLate (s : State) : State :=
  { s with mem := { s.mem with host := s.mem.late.foldl (fun m b => m.write b.1 b.2) s.mem.host, late := [] } }
/-- Commands are fetched again, and latched doorbells taken, on every queue that a firmware core serves. -/
def State.serveQueues (s : State) : State :=
  s.vfs.foldl (fun s v => v.2.queues.foldl (fun s x =>
    if !s.fwServes v.1 x.1 then s
    else
      let k := s.queue v.1 x.1
      let s := match k.latched with
        | some t => (s.setQueue v.1 x.1 { k with latched := none }).takeDoorbell v.1 x.1 t.toNat
        | none => s
      s.fetchCmds v.1 x.1) s) s

/-- Records that waited for the link go on to the host (R402, R403, R456). -/
def State.flushAll (s : State) : State :=
  (s.vfs.foldl (fun s v => ((v.2.queues.map Prod.fst).foldl (fun s q => s.excFlush v.1 q (s.queue v.1 q).held) s).errFlush v.1 |>.svcFlush v.1) s).pfFlush
/-- LINK_RETRAIN_COMPLETE (R379, R462, R470): traffic resumes at the oldest unacknowledged flit, or the link goes down. -/
def execLinkRetrainComplete (t : Training) (s : State) : Out :=
  if s.mod_.link.state ≠ 2 then .next s
  else
    let s := s.fallback 0 t
    if t = .failed then .next ((s.updLink fun l => { l with state := 3 }).fatal 9)
    else .next (s.landLate.updLink fun l => { l with state := if l.buffer = [] then 0 else 1 }).sendHeld.flushAll.serveQueues

/-- KEY_ROLLOVER (R463): a key goes into the idle slot, and the rollover flit is the first with its index. -/
def execKeyRollover (s : State) : Out :=
  let l := s.mod_.link
  if l.keypend || decide (2 ≤ l.state) || decide (128 ≤ l.buffer.length) then .next s
  else .next (s.updLink fun l => { l with keys := (true, true), actkey := !l.actkey, keypend := true, roll := some l.sent }).sendFlit

/-- SHUTON_MARKER_RECEIVE (R394). -/
def execShutonMarkerReceive (port : Nat) (id : W32) (s : State) : Out :=
  let s := s.peerIn
  if !s.mod2.ports.contains port || s.mod2.markers.contains (port, id) then .next s
  else .next { s with mod2 := { s.mod2 with markers := s.mod2.markers ++ [(port, id)] } }.cutCheck

/-! ### Start (R377 to R379, R468 to R470) -/

/-- POWER_GOOD (R377). -/
def execPowerGood (s : State) : Out := if s.mod_.powered then .next s else .next s.resetModule

/-- Start stops: STAGE 15 and recovery mode (R469, R470). -/
def State.halt (s : State) : State := { s with mod_ := { s.mod_ with stage := 15 } }

/-- A start takes the image that recovery mode has written, as image A (R469, LOG 122). -/
def State.takeImage (s : State) : State :=
  let nv := s.mod_.nv
  if nv.newImage = [] then s else { s with mod_ := { s.mod_ with nv := { nv with imageA := nv.newImage, newImage := [] } } }
/-- IMAGE_VERIFIED (R377, R469). -/
def execImageVerified (okA okB : Bool) (s : State) : Out :=
  if s.mod_.stage ≠ 0 ∨ s.mod_.verified then .next s
  else
    let s := s.takeImage
    if okA then .next { s with mod_ := { s.mod_ with verified := true, img := 0 } }
  else if okB then .next ({ s with mod_ := { s.mod_ with verified := true, img := 1 } }.pfPush (s.hubRec 0 0x0012 0 0))
  else .next { s with mod_ := { s.mod_ with img := 2 } }.halt

/-- The die of a stack (R10). -/
def stackDie (n : Nat) : Nat := if n < 2 then 0 else if n < 4 then 1 else if n < 8 then 2 else 3
/-- The stack of a device physical address (R11). -/
def stackOf (pa : Nat) : Nat :=
  match homeDie pa with
  | 0 => pa / 4096 % 2
  | 1 => 2 + pa / 4096 % 2
  | 2 => 4 + pa / 4096 % 4
  | _ => 8 + pa / 4096 % 4
/-- Stacks of a die. -/
def dieStacks (d : Nat) : List Nat := (List.range 12).filter fun n => stackDie n == d
/-- Frames of a die: first and last. -/
def dieFrames (d : Nat) : Nat × Nat :=
  match d with
  | 0 => (0, 0x17FFFF)
  | 1 => (0x180000, 0x2FFFFF)
  | 2 => (0x300000, 0x5FFFFF)
  | _ => (0x600000, 0x8FFFFF)

/-- A unit is out (R470): 0 is the link, 1 + n a stack, 13 + n a port (LOG 38). -/
def State.unitOut (s : State) (unit : Nat) : State := s.pfPush (s.hubRec 2 0x0010 0 unit)

/-- A stack trains, or does not serve: training fails, or its list of retired frames is full (R441, R470). -/
def State.stackOut (s : State) (results : List Training) (n : Nat) : Bool :=
  results.getD n .stored == .failed || decide (4096 ≤ (s.mod_.nv.retired.filter fun r => r.1 == n).length)
/-- The stacks of a die are trained; true when the die goes out. -/
def State.trainDie (s : State) (results : List Training) (d : Nat) : State × Bool :=
  let s := (dieStacks d).foldl (fun s n => s.fallback (1 + n) (results.getD n .stored)) s
  let bad := (dieStacks d).filter (s.stackOut results)
  let s := bad.foldl (fun s n => (s.unitOut (1 + n)) |> fun s => { s with mod_ := { s.mod_ with stkOff := s.mod_.stkOff ||| BitVec.ofNat 12 (2 ^ n) } }) s
  if bad = [] then (s, false)
  else (({ s with mod_ := { s.mod_ with dieOff := s.mod_.dieOff ||| BitVec.ofNat 4 (2 ^ d) } }).setDie d { s.die d with online := false }, true)

/-- A die enters service (R27, R377, R381): its stacks are wiped; its cores leave reset and are seeded from the hub's random source (R108, LOG 7), and its frames may
be allocated. -/
def State.dieUp (s : State) (d : Nat) : State :=
  let s := s.wipe [((dieFrames d).1 * 65536, ((dieFrames d).2 + 1 - (dieFrames d).1) * 65536)]
  let s := s.setDie d { s.die d with inService := true, online := true, fw := 0 }
  let s := (List.range 48).foldl (fun s i =>
    let seed := Config.startSeed s.fresh
    { s.setCore (64 * d + i) { s.core (64 * d + i) with
        up := true, seed := seed, gens := (List.range 8).map fun j => (j, genSeed seed j) } with fresh := s.fresh + 1 }) s
  let s := (List.range 4).foldl (fun s i =>
    { s.setStudy (64 * d + 48 + i) { s.study (64 * d + 48 + i) with gen := genSeed (Config.studySeed s.fresh) 0 } with fresh := s.fresh + 1 }) s
  { s with mod2 := { s.mod2 with free := s.mod2.free ++ [dieFrames d] } }

/-- A counter at or above its limit reports (R471); a HOURS limit of all ones is off. -/
def State.wearReports (s : State) : State :=
  let lim := s.mod_.nv.wearlim
  (List.range 17).foldl (fun s i =>
    let w := get {} s.mod_.wear i
    let hits := [(decide (bits lim 0 20 ≤ w.pcyc), 0), (decide (bits lim 20 20 ≤ min (w.half / 2) (2 ^ 20 - 1)), 1),
      (decide (bits lim 40 24 ≤ w.hours) && bits lim 40 24 != 2 ^ 24 - 1, 2)]
    hits.foldl (fun s (h : Bool × Nat) => if h.1 then s.pfPush (s.hubRec 0 0x0011 0 (i + 256 * h.2)) else s) s) s
/-- Apply a function to every wear register. -/
def State.updWear (s : State) (f : Nat → Wear → Wear) : State :=
  { s with mod_ := { s.mod_ with wear := (List.range 17).foldl (fun m i => put m i (f i (get {} m i))) s.mod_.wear } }
/-- Write the wear counters to the store (R383). -/
def State.wearWrite (s : State) : State := { s with mod_ := { s.mod_ with nv := { s.mod_.nv with wear := s.mod_.wear } } }

/-- SAFE_FUNCTION (R377, R378, R383, R456, R470): the link and the stacks of die 0, or of die 1 in its place, are trained. -/
def execSafeFunction (link : Training) (stk : List Training) (s : State) : Out :=
  if s.mod_.stage ≠ 0 ∨ !s.mod_.verified then .next s
  else
    let s := s.fallback 0 link
    if link = .failed then
      -- the record is kept, since the link is down (R456); recovery mode brings the link up
      let s := (s.updLink fun l => { l with state := 3 }).unitOut 0
      .next (s.updLink fun l => { l with state := 0 }).halt
    else
      let r0 := s.trainDie stk 0
      let r := if r0.2 then r0.1.trainDie stk 1 else (r0.1, false)
      if r.2 then .next r.1.halt
      else
        let s := r.1
        let s := { s with mod_ := { s.mod_ with stage := 1 } }.dieUp s.mod_.safeDie
        let s := (s.updWear fun _ w => { w with pcyc := satInc 20 w.pcyc })
        let s := { s with mod_ := { s.mod_ with nv := { s.mod_.nv with wear := s.mod_.wear } } }
        let kept := s.mod_.nv.kept
        let s := { s with mod_ := { s.mod_ with nv := { s.mod_.nv with kept := [] } }, mod2 := { s.mod2 with pfErr := { s.mod2.pfErr with held := s.mod2.pfErr.held ++ kept } } }
        .next s.pfFlush.wearReports

/-- FULL_FUNCTION (R372, R377, R378, R470): the other dies, their stacks and the ports are trained; the queues move. -/
def execFullFunction (stk ports : List Training) (s : State) : Out :=
  if s.mod_.stage ≠ 1 then .next s
  else
    let ds := (List.range 4).filter fun d => !(s.die d).inService && !s.mod_.dieOff.getLsbD d
    let s := ds.foldl (fun s d =>
      let r := s.trainDie stk d
      if r.2 then r.1 else r.1.dieUp d) s
    let s := (List.range 18).foldl (fun s n =>
      let t := ports.getD n .stored
      let s := s.fallback (13 + n) t
      if t = .failed then { s.unitOut (13 + n) with mod_ := { (s.unitOut (13 + n)).mod_ with portOff := s.mod_.portOff ++ [n] } }
      else { s with mod2 := { s.mod2 with ports := s.mod2.ports ++ [n] } }) s
    .next { s with mod_ := { s.mod_ with stage := 2 } }.serveQueues

/-- RECOVERY_IMAGE_WRITE (R469). -/
def execRecoveryImageWrite (image : List Byte) (s : State) : Out :=
  if s.mod_.stage ≠ 15 then .next s else .next { s with mod_ := { s.mod_ with nv := { s.mod_.nv with newImage := image } } }

/-! ### Power and wear (R382, R383) -/

/-- Power is gone: all volatile state with it. -/
def State.off (s : State) : State :=
  let r := s.resetModule
  { r with mod_ := { r.mod_ with powered := false } }
/-- ORDERLY_POWER_DOWN (R383). -/
def execOrderlyPowerDown (s : State) : Out := .next s.wearWrite.off
/-- POWER_LOSS (R383). -/
def execPowerLoss (s : State) : Out := .next s.off

/-- A temperature sample of one wear register (R383). -/
def Wear.sample (w : Wear) (t : Int) : Wear :=
  match w.ext with
  | none => { w with rising := false, ext := some t }
  | some x =>
    if w.rising then
      if t ≤ x - 40 then { w with half := w.half + 1, rising := false, ext := some t } else { w with ext := some (max x t) }
    else if x + 40 ≤ t then { w with half := w.half + 1, rising := true, ext := some t }
    else { w with ext := some (min x t) }
/-- THERMAL_SAMPLE (R383): the hottest sensor of each die, then the sensor of each stack; a register with no sample keeps its state. -/
def execThermalSample (temps : List Int) (s : State) : Out :=
  .next (s.updWear fun i w => match temps[i]? with
    | some t => w.sample t
    | none => w)
/-- WEAR_HOURLY_WRITE (R383, R471). -/
def execWearHourlyWrite (s : State) : Out :=
  .next (s.updWear fun _ w => { w with hours := satInc 24 w.hours }).wearWrite.wearReports

/-! ### Wipes (R381) -/

/-- WIPE_ACKNOWLEDGED (R380, R381): the frame reads as zeros and may be given again. -/
def execWipeAcknowledged (frame : Nat) (s : State) : Out :=
  if !s.mod2.wiping.contains frame then .next s
  else
    let s := s.wipe [(frame * 65536, 65536)]
    .next { s with mod2 := { s.mod2 with wiping := s.mod2.wiping.filter (· != frame), taken := s.mod2.taken.filter (· != frame) } }

/-! ### Firmware cores (R466, R467) -/

/-- Repair a control block from its sequence word and its shadow (R467): `done` counts the commands that have completed. -/
def State.repair (s : State) (vf q : Nat) : State :=
  let addr := (s.queue vf q).addr.toNat
  if !(s.queue vf q).cb.enabled then s
  else
  let g := s.fwGet (s.writerDie vf q) vf q addr 64
  let s := g.2
  let x := s.queue vf q
  match g.1.map Qcb.ofBytes with
  | none => s.blockUpdate vf q fun c => c
  | some b =>
    if b.seq.getLsbD 0 && (x.shadowPx || x.shadow.seq.getLsbD 0) then
      let cb := { b with enabled := false }
      let s := s.setQueue vf q { x with cb := cb, shadow := cb, shadowPx := false }
      ((s.fwWrite (s.writerDie vf q) (s.asnOf vf) x.addr.toNat cb.bytes).getD s).errPush vf (s.cmdRec vf 0x000B x.addr.toNat 0 [])
    else if b.seq.getLsbD 0 then
      let cb := { x.shadow with seq := b.seq + 1 }
      let s := s.setQueue vf q { x with cb := cb, shadow := cb, shadowPx := false }
      ((s.fwWrite (s.writerDie vf q) (s.asnOf vf) x.addr.toNat cb.bytes).getD s).advanceDone vf q 65536
    else s.setQueue vf q { x with cb := b, shadow := b, shadowPx := false }
/-- The queues that the firmware core of a die serves. -/
def State.queuesOf (s : State) (die : Nat) : List (Nat × Nat) :=
  s.vfs.flatMap fun v => (v.2.queues.filter fun x => s.serverDie v.1 x.1 == some die).map fun x => (v.1, x.1)

/-- FIRMWARE_WATCHDOG_EXPIRY (R26, R466, R467): the core is reset and reloads; a second reset within 10 s fails it, and its queues move, their blocks
repaired. -/
def execFirmwareWatchdogExpiry (die : Nat) (recent : Bool) (s : State) : Out :=
  let d := s.die die
  if 3 < die ∨ !d.inService ∨ d.fw = 2 then .next s
  else if !recent then .next ((s.setDie die { d with fw := 1 }).pfPush (s.hubRec 0 0x000D 0 0))
  else
    let qs := s.queuesOf die
    let s := s.setDie die { d with fw := 2 }
    if s.mod_.stage = 2 ∧ ((List.range 4).all fun i => (s.die i).fw == 2 || !(s.die i).inService) then .next (s.fatal 0x000E)
    else .next ((qs.foldl (fun s x => s.repair x.1 x.2) s).pfPush { s.hubRec 2 0x000E 0 0 with die := die, core := 47, count := d.count.toNat }).serveQueues

/-- FIRMWARE_RELOAD_COMPLETE (R466, R467). -/
def execFirmwareReloadComplete (die : Nat) (s : State) : Out :=
  let d := s.die die
  if d.fw ≠ 1 then .next s
  else
    let s := s.setDie die { d with fw := 0 }
    .next ((s.queuesOf die).foldl (fun s x => s.repair x.1 x.2) s).serveQueues

/-! ### What registers read (R6, R7, R362, R363, R382, R388 to R393, R402, R429, R461, R468, R471) -/

/-- The module answers reads of registers other than STARTSTAT: it is not in recovery mode (R469); there the others read 0 (LOG 122). -/
def State.readsAll (s : State) : Bool := s.mod_.stage != 15
/-- A register of a VF's window (R362); the physical function's error-ring registers read 0 there. -/
def State.readWindow (s : State) (vf off : Nat) : W64 :=
  let v := s.vf vf
  let w (n : Nat) : W64 := BitVec.ofNat 64 n
  if !s.readsAll then 0
  else if 0x200 ≤ off ∧ off < 0x280 then (s.queue vf ((off - 0x200) / 8)).addr
  else if off = 0x400 then w v.svc.prod
  else if off = 0x408 then w v.svc.cons
  else if off = 0x410 then w v.maxprio
  else if off = 0x418 then w (s.liveGrids vf)
  else if off = 0x420 then (if vf = 128 then 0 else w v.err.prod)
  else if off = 0x428 then (if vf = 128 then 0 else w v.err.cons)
  else if off = 0x430 then (if vf = 128 then 0 else w (v.lost.toNat * 2 ^ 32 + if v.c0 then 1 else 0))
  else if 0x800 ≤ off ∧ off < 0xA00 then
    match get? v.wqs ((off - 0x800) / 8) with
    | some q => w (q.tail % 2 ^ 32 * 2 ^ 32 + q.head % 2 ^ 32)
    | none => 0
  else 0

/-- Wear register i (R382). -/
def Wear.read (x : Wear) : W64 := BitVec.ofNat 64 (x.hours * 2 ^ 40 + min (x.half / 2) (2 ^ 20 - 1) * 2 ^ 20 + x.pcyc)
/-- LINKSTAT (R461). -/
def Link.read (l : Link) : W64 :=
  BitVec.ofNat 64 (l.retrain * 2 ^ 48 + l.replay * 2 ^ 32 + l.crc * 256 + (if l.keypend then 32 else 0) + (if l.actkey then 16 else 0) + l.state)
/-- STARTSTAT (R468). -/
def Module.startStat (m : Module) : W64 :=
  BitVec.ofNat 64 (m.dieOff.toNat * 2 ^ 36 + m.stkOff.toNat * 2 ^ 24 + m.fallbk * 2 ^ 16 + m.img * 64 + m.stage)

/-- A register of the physical function at or above 0x10_0000. -/
def State.readPf (s : State) (off : Nat) : W64 :=
  let o := off - 0x100000
  let w (n : Nat) : W64 := BitVec.ofNat 64 n
  let m := s.mod_
  if !s.readsAll then (if o = 0xD10 then m.startStat else 0)
  else if o < 0x80 then (s.part (o / 8)).reg
  else if o < 0x100 then (s.part ((o - 0x80) / 8)).colour
  else if 0x400 ≤ o ∧ o < 0xC00 then (if o % 16 = 0 then (s.vf ((o - 0x400) / 16)).quota0 else (s.vf ((o - 0x400) / 16)).quota1)
  else if o = 0xC00 then w (m.cutId.toNat * 2 ^ 32)
  else if o = 0xC08 then w (m.cutId.toNat * 2 ^ 32 + m.cutState)
  else if o = 0xC10 then m.cutMask0
  else if o = 0xC18 then m.cutMask1
  else if 0xC40 ≤ o ∧ o < 0xCC0 then (s.part ((o - 0xC40) / 8)).wdog
  else if o = 0xD00 then m.link.read
  else if o = 0xD08 then m.nv.wearlim
  else if o = 0xD10 then m.startStat
  else if o = 0xD20 then w s.mod2.pfErr.base
  else if o = 0xD28 then w s.mod2.pfErr.size
  else if o = 0xD30 then w s.mod2.pfErr.prod
  else if o = 0xD38 then w s.mod2.pfErr.cons
  else if o = 0xD40 then s.mod2.pferrc0
  else if 0xE00 ≤ o ∧ o < 0xE88 then (get {} m.wear ((o - 0xE00) / 8)).read
  else 0

/-- The value generation that HISTSEL of a study core selects (R353, R363): an argument row is its caller's row. -/
def State.selected (s : State) (c : StudyCore) : Option Hist :=
  let sel := c.r 12
  let slot := bits sel 0 4
  let row := ((get? c.slots slot).map s.grp).elim (bits sel 12 5, bits sel 4 8) fun g => g.ownerRow (bits sel 12 5) (bits sel 4 8)
  match c.hist.find? fun e => e.1 == (slot, row) with
  | some e => e.2[bits sel 17 3]?
  | none => none
/-- Register i of core c of die d in the study window (R363). -/
def State.readStudy (s : State) (d c i : Nat) : W64 :=
  if !s.readsAll then 0
  else if c < 47 then (if i ≤ 6 then (s.core (64 * d + c)).armR i else 0)
  else if 48 ≤ c ∧ c ≤ 51 then
    let k := s.study (64 * d + c)
    if i = 11 then k.r 11 + (if k.isFull then 0x8000000000000000 else 0)
    else if i = 13 then match s.selected k with
      | some h => BitVec.ofNat 64 (2 ^ 63 + bits h.pc 0 48)
      | none => 0
    else if i = 14 then match s.selected k with
      | some h => BitVec.ofNat 64 h.count
      | none => 0
    else if 8 ≤ i ∧ i ≤ 12 ∨ 16 ≤ i ∧ i ≤ 207 then k.r i
    else if 224 ≤ i ∧ i < 256 then match s.selected k with
      | some h => join (lane h.w (2 * (i - 224))) (lane h.w (2 * (i - 224) + 1))
      | none => 0
    else 0
  else 0
/-- A 64-bit read at a byte offset of the study window (R363): 256 KiB for a die, 2 KiB for a core, a study core's last 256 bytes its history
aperture. -/
def State.readStudyWindow (s : State) (off : Nat) : W64 := s.readStudy (off / 0x40000) (off % 0x40000 / 0x800) (off % 0x800 / 8)

end Sys2Proof.Machine
end

