-- ==== Sys2Proof/Machine/Damage.lean ====
section
/-! DEFINITION. Damage (R434 to R437): what is read and found damaged in each structure, retirement (R441, R442), and where it is contained. -/

namespace Sys2Proof.Machine

/-! ### Records -/

/-- An error that its code corrects, or whose copy is fetched again: class 0, counted, and told to each of the VFs whose state it is that asks for such
records, in a record of its own (R401, R434). -/
def State.soft (s : State) (vfs : List Nat) : State :=
  (vfs.filter fun v => decide (v < 128)).foldl (fun s v =>
    s.errPush v { s.hubRec 0 Config.softKind 0 0 with vf := v, part := (s.vf v).part }) (s.pfPush (s.hubRec 0 Config.softKind 0 0))

/-- The pages of VFs that map an address of host or device memory: VF, virtual address, entry. -/
def State.mappers (s : State) (host : Bool) (pa : Nat) : List (Nat × Nat × W64) :=
  (s.vfs.filter fun v => v.1 < 128).flatMap fun v => match v.2.asn with
    | some n => (s.pagesOf n).filterMap fun p =>
      if (pteTgt p.2.2.2 != 0) == host && decide (p.2.1 ≤ pa) && decide (pa < p.2.1 + p.2.2.1) then some (v.1, p.1 + (pa - p.2.1), p.2.2.2) else none
    | none => []
/-- The VFs of a list of mappings, each once with its first address, in ascending order. -/
def firstOfEach (ms : List (Nat × Nat × W64)) : FMap Nat := ms.foldl (fun l m => if (get? l m.1).isSome then l else put l m.1 m.2.1) []
/-- A VF whose address space has a table in a frame. -/
def State.tableOwner (s : State) (f : Nat) : Option Nat :=
  (s.vfs.find? fun v => decide (v.1 < 128) && v.2.asn.elim false fun n => (s.space n).root.elim false fun r => frameIn (s.tablesFrom 3 r) f).map Prod.fst
/-- The VFs whose state a sector is: those that map it, or whose table it holds. -/
def State.ownersOf (s : State) (host : Bool) (pa : Nat) : List Nat :=
  match (firstOfEach (s.mappers host pa)).map Prod.fst with
  | [] => if host then [] else (s.tableOwner (pa / 65536)).toList
  | vs => vs
/-- The VFs that are bound to an address space. -/
def State.boundTo (s : State) (asn : Nat) : List Nat := (s.vfs.filter fun v => v.2.asn == some asn).map Prod.fst
/-- A frame belongs to the shelf of a study core. -/
def State.shelfFrame (s : State) (f : Nat) : Bool := s.studies.any fun c => frameIn [((c.2.r 9).toNat, (c.2.r 10).toNat)] f

/-- The record of a sector that is uncorrectable in memory, or as a dirty copy (R436, R437): one to the VF that owns the frame, the lowest that maps it
writable, else the one whose table it holds, else the physical function for a shelf; where every mapping is W = 0, one to each VF that maps it (R442). A
free frame writes none: false. -/
def State.sectorRec (s : State) (pa : Nat) : State × Bool :=
  let ms := s.mappers false pa
  let r : Rec := { s.hubRec 2 0x0D02 0 0 with flags := 64, die := homeDie pa, count := (s.die (homeDie pa)).count.toNat }
  if ms ≠ [] ∧ ms.all (fun m => !pteW m.2.2) then
    ((firstOfEach ms).foldl (fun s m => s.errPush m.1 { r with kind := 0x0D07, addr := m.2, vf := m.1, part := (s.vf m.1).part }) s, true)
  else match (firstOfEach (ms.filter fun m => pteW m.2.2)).head?.or ((s.tableOwner (pa / 65536)).map fun v => (v, 0)) with
    | some m => (s.errPush m.1 { r with addr := m.2, vf := m.1, part := (s.vf m.1).part }, true)
    | none => if s.shelfFrame (pa / 65536) then (s.pfPush r, true) else (s, false)

/-! ### HBM (R436, R441) -/

/-- A frame is listed as retired with its stack (R441): a list holds 4,096. -/
def State.retire (s : State) (pa : Nat) : State :=
  let e := (stackOf pa, pa / 65536)
  let nv := s.mod_.nv
  if nv.retired.contains e ∨ 4096 ≤ (nv.retired.filter fun r => r.1 == e.1).length then s
  else { s with mod_ := { s.mod_ with nv := { nv with retired := nv.retired ++ [e] } } }

/-- An item of a pantry region is lost: it leaves its tag's order, and every VF bound to the address space is told (R447). -/
def State.itemGone (s : State) (asn va place : Nat) (readable : Bool) : State :=
  match get? (s.space asn).regions va with
  | none => s
  | some r => match r.items[place]? with
    | none => s
    | some i =>
      let aux := if readable then wordTag (i.2.headD 0) else 0
      ((s.boundTo asn).filter fun v => decide (v < 128)).foldl (fun s v =>
        s.errPush v { s.hubRec 2 0x0A04 0 aux with vf := v, part := (s.vf v).part }) (s.setItems asn va (r.items.eraseIdx place))
/-- The item that a damaged sector of a region's share on a slice holds, if any, is free (R265, LOG 116). -/
def State.itemLost (s : State) (asn va slice : Nat) : State :=
  let items := (get? (s.space asn).regions va).elim [] fun r => r.items
  let s' := { s with fresh := s.fresh + 1 }
  match ((items.zipIdx).filter fun x => tagSlice (wordTag (x.1.2.headD 0)) == slice)[Config.itemHit s.fresh]? with
  | none => s'
  | some (_, n) => s'.itemGone asn va n (Config.tagReadable s.fresh)
/-- The pantry regions that a damaged frame belongs to. -/
def State.pantriesOf (s : State) (frame : Nat) : List (Nat × Nat) :=
  s.spaces.flatMap fun a => (a.2.regions.filter fun r => r.2.frames.contains frame).map fun r => (a.1, r.1)

/-- A sector of HBM is uncorrectable (R436, R441): it is poisoned, also where it was poisoned before, and its frame retired; a free frame is wiped, and never given
again, also where the stack's list is full. What has been found once writes no second record. -/
def State.hbmDamage (s : State) (sector : Nat) : State :=
  let pa := sector * 32
  let f := pa / 65536
  let seen := s.mem.found.contains sector
  if devTop ≤ pa ∨ (seen ∧ s.mem.devPx.contains sector) then s
  else
    let s := (s.setDevPx sector true).retire pa
    let s := { s with mem := { s.mem with found := insertNat sector s.mem.found } }
    let s := (s.pantriesOf f).foldl (fun s r => s.itemLost r.1 r.2 (stackOf pa)) s
    let r := s.sectorRec pa
    if !r.2 then s.wipe [(f * 65536, 65536)] else if seen then s else r.1

/-! ### Registers, scratchpads and caches (R434, R437, R442) -/

/-- A lane word of a row is poisoned, at its place in the chain (R181). -/
def Group.hurtRow (g : Group) (depth r l : Nat) : Group :=
  let bad (x : Row) : Row := { x with px := x.px ||| BitVec.ofNat 64 (2 ^ l) }
  if r < 64 then
    let p := aliasRow g.frames depth r 32
    let f := g.frameAt p.1
    if p.2 < f.nv then g.setFrameAt p.1 { f with v := put f.v p.2 (bad (get {} f.v p.2)) } else g
  else
    let f := g.frameAt depth
    if r - 64 < f.nm then g.setFrameAt depth { f with m := put f.m (r - 64) (bad (get {} f.m (r - 64))) } else g

/-- The bytes of a sector of a line leave it, to be fetched again. -/
def Line.forget (l : Line) (x : Nat) : Line := { l with bytes := l.bytes.filter fun b => b.1 / 32 != x, px := l.px.filter (· != x) }

/-- A sector of an L1 line fails its parity (R434, R437): a clean one is fetched again; a dirty one is written back poisoned, with the record of R436. -/
def State.l1Damage (s : State) (c k x : Nat) : State :=
  let co := s.core c
  match get? co.l1 k with
  | none => s
  | some l =>
    if !secAny l.valid x then s
    else if secAny l.dirty x then
      let s := (s.setCore c { co with l1 := put co.l1 k { l with px := insertNat x l.px } }).l1Back c k
      if lineHost k then s else (s.sectorRec (lineAddr k + 32 * x)).1
    else (s.setCore c { co with l1 := putLine co.l1 k (l.forget x) }).soft (s.ownersOf (lineHost k) (lineAddr k + 32 * x))
/-- A sector of a visitor line is uncorrectable (R434): a clean one whose home is sound is fetched again, otherwise it is poisoned. -/
def State.visitorDamage (s : State) (d k x : Nat) : State :=
  let di := s.die d
  match get? di.visitors k with
  | none => s
  | some l =>
    if !secAny l.valid x then s
    else if secAny l.dirty x ∨ s.homePx k x then
      let s' := s.setDie d { di with visitors := put di.visitors k { l with px := insertNat x l.px } }
      if lineHost k ∨ !secAny l.dirty x then s' else (s'.sectorRec (lineAddr k + 32 * x)).1
    else (s.setDie d { di with visitors := putLine di.visitors k (l.forget x) }).soft (s.ownersOf (lineHost k) (lineAddr k + 32 * x))
/-- A sector in the L2 of its home is uncorrectable (R434, R442). -/
def State.homeDamage (s : State) (sector : Nat) (clean : Bool) : State :=
  if devTop ≤ sector * 32 then s
  else if clean then s.soft (s.ownersOf false (sector * 32))
  else if s.mem.devPx.contains sector then s
  else ((s.setDevPx sector true).sectorRec (sector * 32)).1

/-- A parked request is uncorrectable (R447): it is withdrawn and reissued. -/
def State.requestDamage (s : State) (id : Nat) : State :=
  match get? s.preqs id with
  | some r => if r.st = 2 then (s.setReq id { r with st := 0 }).soft [r.vf] else s
  | none => s

/-- An entry that a rollback of a team would need is uncorrectable (R443): its address, by which the record names it (LOG 117). -/
def State.entryDamage (s : State) (t : Nat) (at_ : Option Nat) : State :=
  let tm := s.team t
  match at_ with
  | some a => if tm.live then s.setTeam t { tm with guard := { tm.guard with damaged := some a } } else s
  | none => s

/-- A dirty-map plane is uncorrectable (R432): every granule of its generation counts as dirty. -/
def State.planeDamage (s : State) (asn p : Nat) : State :=
  if 4 ≤ p then s
  else
    let sp := s.space asn
    let s := s.setSpace asn { sp with allDirty := insertNat p sp.allDirty }
    s.soft (s.boundTo asn)

/-- Damage is found where something is read (R434 to R437, R441 to R443, R447, R459), or reaches a unit as a whole (R406, LOG 114). -/
def State.damage (s : State) : Damage → State
  | .hbm sector => s.hbmDamage sector
  | .row k d r l => if (s.grp k).live && decide (l < 64) && decide (d ≤ (s.grp k).fdepth) then s.upd k (·.hurtRow d r l) else s
  | .scalar k d r =>
    let g := s.grp k
    if g.live && decide (r < 32) && decide (d ≤ g.fdepth) then s.setGrp k (g.setScAt d r ⟨(get {} (g.frameAt d).sc r).v, true⟩) else s
  | .bank t w => if (s.team t).live && decide (4 * w < (s.grid (s.team t).grid).alloc) then s.setTeam t { s.team t with scrPx := insertNat w (s.team t).scrPx } else s
  | .hatch t h i => if decide (i < ((s.team t).handles h).length) then s.setTeam t { s.team t with hatchPx := (h, i) :: (s.team t).hatchPx } else s
  | .l1 c k x => s.l1Damage c k x
  | .icache c grid k =>
    if (get [] s.icaches c).any fun x => x.grid == grid && x.key == k then
      { s with icaches := put s.icaches c ((get [] s.icaches c).filter fun x => !(x.grid == grid && x.key == k)) }.soft [(s.grid grid).vf]
    else s
  | .visitor d k x => s.visitorDamage d k x
  | .home sector clean => s.homeDamage sector clean
  | .parlour g d x =>
    if (s.grid g).run.parlour.contains d && decide (32 * x < (s.grid g).parlour) then
      { s with mem := { s.mem with parPx := (g, d, x) :: s.mem.parPx.filter (· != (g, d, x)) } }
    else s
  | .item asn va n readable => s.itemGone asn va n readable
  | .request id => s.requestDamage id
  | .undo t n => s.entryDamage t (((s.team t).guard.undo[n]?).map fun e => e.2.2.1)
  | .scratchLog t n => s.entryDamage t (((s.team t).guard.scrLog[n]?).map fun l => scrBase + 64 * l.1)
  | .shadow t n => s.entryDamage t (((s.team t).guard.shadow[n]?).map fun e => (e.1 * 32 + e.2.1) * 256 + e.2.2)
  | .plane asn p => s.planeDamage asn p
  | .queueShadow vf q => if (get? (s.vf vf).queues q).isSome then s.setQueue vf q { s.queue vf q with shadowPx := true } else s
  | .studyControl c => if 48 ≤ c % 64 ∧ c % 64 ≤ 51 ∧ c < 256 ∧ !(s.study c).failed then s.controlLost c else s
  | .vf v => if v < 128 then { s with fresh := s.fresh + 1 }.containVf v 3 (Config.wideKind s.fresh) else s
  | .partition p => if p < 16 then { s with fresh := s.fresh + 1 }.containPart p (Config.wideKind s.fresh) [] else s
  | .die d => if d < 4 then { s with fresh := s.fresh + 1 }.containDie d (Config.wideKind s.fresh) else s

/-- The VFs whose state is read there (R401): firmware's copies and a study core's control memory are no VF's, and a unit as a whole has no error that is corrected. -/
def State.damageVfs (s : State) : Damage → List Nat
  | .hbm x => s.ownersOf false (x * 32)
  | .home x _ => s.ownersOf false (x * 32)
  | .row k _ _ _ => [(s.gridOf (s.grp k)).vf]
  | .scalar k _ _ => [(s.gridOf (s.grp k)).vf]
  | .bank t _ => [(s.grid (s.team t).grid).vf]
  | .hatch t _ _ => [(s.grid (s.team t).grid).vf]
  | .undo t _ => [(s.grid (s.team t).grid).vf]
  | .scratchLog t _ => [(s.grid (s.team t).grid).vf]
  | .shadow t _ => [(s.grid (s.team t).grid).vf]
  | .l1 _ k x => s.ownersOf (lineHost k) (lineAddr k + 32 * x)
  | .visitor _ k x => s.ownersOf (lineHost k) (lineAddr k + 32 * x)
  | .icache _ g _ => [(s.grid g).vf]
  | .parlour g _ _ => [(s.grid g).vf]
  | .item asn _ _ _ => s.boundTo asn
  | .plane asn _ => s.boundTo asn
  | .request id => ((get? s.preqs id).map PReq.vf).toList
  | .queueShadow .. | .studyControl _ | .vf _ | .partition _ | .die _ => []

/-- PATROL_SCRUB (R401, R434, R436): an error that is corrected changes nothing but the count, and a VF whose state it is may be told; one that is not is
damage. -/
def execPatrolScrub (sector : Damage) (bad : Bool) (s : State) : Out := .next (if bad then s.damage sector else s.soft (s.damageVfs sector))

end Sys2Proof.Machine
end

