-- ==== Sys2Proof/Machine/Dispatch.lean ====
section
/-! DEFINITION. The meaning of every instruction, one arm per constructor. -/

namespace Sys2Proof.Machine

/-- Execute one instruction (LOG 1). -/
def exec (i : Instr) (s : State) : Host.Outcome State Fault Refusal :=
  match i with
  | .add f => Sys2Proof.Machine.execAdd f s
  | .sub f => Sys2Proof.Machine.execSub f s
  | .mul f => Sys2Proof.Machine.execMul f s
  | .mulhS f => Sys2Proof.Machine.execMulhS f s
  | .mulhZ f => Sys2Proof.Machine.execMulhZ f s
  | .mad f => Sys2Proof.Machine.execMad f s
  | .minS f => Sys2Proof.Machine.execMinS f s
  | .minZ f => Sys2Proof.Machine.execMinZ f s
  | .maxS f => Sys2Proof.Machine.execMaxS f s
  | .maxZ f => Sys2Proof.Machine.execMaxZ f s
  | .and f => Sys2Proof.Machine.execAnd f s
  | .or f => Sys2Proof.Machine.execOr f s
  | .xor f => Sys2Proof.Machine.execXor f s
  | .andn f => Sys2Proof.Machine.execAndn f s
  | .shl f => Sys2Proof.Machine.execShl f s
  | .shr f => Sys2Proof.Machine.execShr f s
  | .sar f => Sys2Proof.Machine.execSar f s
  | .rotl f => Sys2Proof.Machine.execRotl f s
  | .adds f => Sys2Proof.Machine.execAdds f s
  | .subs f => Sys2Proof.Machine.execSubs f s
  | .addi f => Sys2Proof.Machine.execAddi f s
  | .andi f => Sys2Proof.Machine.execAndi f s
  | .ori f => Sys2Proof.Machine.execOri f s
  | .xori f => Sys2Proof.Machine.execXori f s
  | .shli f => Sys2Proof.Machine.execShli f s
  | .shri f => Sys2Proof.Machine.execShri f s
  | .sari f => Sys2Proof.Machine.execSari f s
  | .movi f => Sys2Proof.Machine.execMovi f s
  | .fadd f => Sys2Proof.Machine.execFadd f s
  | .fsub f => Sys2Proof.Machine.execFsub f s
  | .fmul f => Sys2Proof.Machine.execFmul f s
  | .fma f => Sys2Proof.Machine.execFma f s
  | .fmin f => Sys2Proof.Machine.execFmin f s
  | .fmax f => Sys2Proof.Machine.execFmax f s
  | .fdot2 f => Sys2Proof.Machine.execFdot2 f s
  | .setp f => Sys2Proof.Machine.execSetp f s
  | .setpi f => Sys2Proof.Machine.execSetpi f s
  | .pand f => Sys2Proof.Machine.execPand f s
  | .por f => Sys2Proof.Machine.execPor f s
  | .pxor f => Sys2Proof.Machine.execPxor f s
  | .pandn f => Sys2Proof.Machine.execPandn f s
  | .pnot f => Sys2Proof.Machine.execPnot f s
  | .pmov f => Sys2Proof.Machine.execPmov f s
  | .pset f => Sys2Proof.Machine.execPset f s
  | .pclr f => Sys2Proof.Machine.execPclr f s
  | .sel f => Sys2Proof.Machine.execSel f s
  | .mov f => Sys2Proof.Machine.execMov f s
  | .abs f => Sys2Proof.Machine.execAbs f s
  | .neg f => Sys2Proof.Machine.execNeg f s
  | .not f => Sys2Proof.Machine.execNot f s
  | .clz f => Sys2Proof.Machine.execClz f s
  | .popc f => Sys2Proof.Machine.execPopc f s
  | .brev f => Sys2Proof.Machine.execBrev f s
  | .fabs f => Sys2Proof.Machine.execFabs f s
  | .fneg f => Sys2Proof.Machine.execFneg f s
  | .frcp f => Sys2Proof.Machine.execFrcp f s
  | .frsq f => Sys2Proof.Machine.execFrsq f s
  | .fsqrt f => Sys2Proof.Machine.execFsqrt f s
  | .fexp2 f => Sys2Proof.Machine.execFexp2 f s
  | .flog2 f => Sys2Proof.Machine.execFlog2 f s
  | .frndN f => Sys2Proof.Machine.execFrndN f s
  | .frndZ f => Sys2Proof.Machine.execFrndZ f s
  | .frndM f => Sys2Proof.Machine.execFrndM f s
  | .frndP f => Sys2Proof.Machine.execFrndP f s
  | .fclass f => Sys2Proof.Machine.execFclass f s
  | .cvt f => Sys2Proof.Machine.execCvt f s
  | .cvtnPk f => Sys2Proof.Machine.execCvtnPk f s
  | .cvtnUnpk f => Sys2Proof.Machine.execCvtnUnpk f s
  | .cvtnBscale f => Sys2Proof.Machine.execCvtnBscale f s
  | .bfxS f => Sys2Proof.Machine.execBfxS f s
  | .bfxZ f => Sys2Proof.Machine.execBfxZ f s
  | .bfi f => Sys2Proof.Machine.execBfi f s
  | .shflIdx f => Sys2Proof.Machine.execShflIdx f s
  | .shflUp f => Sys2Proof.Machine.execShflUp f s
  | .shflDn f => Sys2Proof.Machine.execShflDn f s
  | .shflXor f => Sys2Proof.Machine.execShflXor f s
  | .voteAny f => Sys2Proof.Machine.execVoteAny f s
  | .voteAll f => Sys2Proof.Machine.execVoteAll f s
  | .voteEq f => Sys2Proof.Machine.execVoteEq f s
  | .ballot f => Sys2Proof.Machine.execBallot f s
  | .ballotCnt f => Sys2Proof.Machine.execBallotCnt f s
  | .redx f => Sys2Proof.Machine.execRedx f s
  | .scan f => Sys2Proof.Machine.execScan f s
  | .vmovs f => Sys2Proof.Machine.execVmovs f s
  | .smovv f => Sys2Proof.Machine.execSmovv f s
  | .vins f => Sys2Proof.Machine.execVins f s
  | .sadd f => Sys2Proof.Machine.execSadd f s
  | .ssub f => Sys2Proof.Machine.execSsub f s
  | .smul f => Sys2Proof.Machine.execSmul f s
  | .smulh f => Sys2Proof.Machine.execSmulh f s
  | .sdiv f => Sys2Proof.Machine.execSdiv f s
  | .sdivz f => Sys2Proof.Machine.execSdivz f s
  | .srem f => Sys2Proof.Machine.execSrem f s
  | .sand f => Sys2Proof.Machine.execSand f s
  | .sor f => Sys2Proof.Machine.execSor f s
  | .sxor f => Sys2Proof.Machine.execSxor f s
  | .sshl f => Sys2Proof.Machine.execSshl f s
  | .sshr f => Sys2Proof.Machine.execSshr f s
  | .ssar f => Sys2Proof.Machine.execSsar f s
  | .smin f => Sys2Proof.Machine.execSmin f s
  | .smax f => Sys2Proof.Machine.execSmax f s
  | .sminz f => Sys2Proof.Machine.execSminz f s
  | .smaxz f => Sys2Proof.Machine.execSmaxz f s
  | .smov sa sd => Sys2Proof.Machine.execSmov sa sd s
  | .sslt f => Sys2Proof.Machine.execSslt f s
  | .ssltz f => Sys2Proof.Machine.execSsltz f s
  | .sseq f => Sys2Proof.Machine.execSseq f s
  | .saddi imm sa sd => Sys2Proof.Machine.execSaddi imm sa sd s
  | .sli f => Sys2Proof.Machine.execSli f s
  | .slh f => Sys2Proof.Machine.execSlh f s
  | .slx f => Sys2Proof.Machine.execSlx f s
  | .movCompact f => Sys2Proof.Machine.execMovCompact f s
  | .addCompact f => Sys2Proof.Machine.execAddCompact f s
  | .subCompact f => Sys2Proof.Machine.execSubCompact f s
  | .andCompact f => Sys2Proof.Machine.execAndCompact f s
  | .orCompact f => Sys2Proof.Machine.execOrCompact f s
  | .xorCompact f => Sys2Proof.Machine.execXorCompact f s
  | .shlCompact f => Sys2Proof.Machine.execShlCompact f s
  | .shrCompact f => Sys2Proof.Machine.execShrCompact f s
  | .faddCompact f => Sys2Proof.Machine.execFaddCompact f s
  | .fsubCompact f => Sys2Proof.Machine.execFsubCompact f s
  | .fmulCompact f => Sys2Proof.Machine.execFmulCompact f s
  | .minCompact f => Sys2Proof.Machine.execMinCompact f s
  | .maxCompact f => Sys2Proof.Machine.execMaxCompact f s
  | .mulCompact f => Sys2Proof.Machine.execMulCompact f s
  | .addq f => Sys2Proof.Machine.execAddq f s
  | .movq f => Sys2Proof.Machine.execMovq f s
  | .bra off g => Sys2Proof.Machine.execBra off g s
  | .brs off cc sa => Sys2Proof.Machine.execBrs off cc sa s
  | .call f => Sys2Proof.Machine.execCall f s
  | .calli f => Sys2Proof.Machine.execCalli f s
  | .ret k => Sys2Proof.Machine.execRet k s
  | .unwind sa => Sys2Proof.Machine.execUnwind sa s
  | .jmp sa => Sys2Proof.Machine.execJmp sa s
  | .reform => Sys2Proof.Machine.execReform s
  | .exit => Sys2Proof.Machine.execExit s
  | .yield => Sys2Proof.Machine.execYield s
  | .nop => Sys2Proof.Machine.execNop s
  | .trap code => Sys2Proof.Machine.execTrap code s
  | .brk code => Sys2Proof.Machine.execBrk code s
  | .rti => Sys2Proof.Machine.execRti s
  | .suspect code => Sys2Proof.Machine.execSuspect code s
  | .probe tag sa => Sys2Proof.Machine.execProbe tag sa s
  | .loop off r1 => Sys2Proof.Machine.execLoop off r1 s
  | .ldS8 f => Sys2Proof.Machine.execLdS8 f s
  | .ldZ8 f => Sys2Proof.Machine.execLdZ8 f s
  | .ldS16 f => Sys2Proof.Machine.execLdS16 f s
  | .ldZ16 f => Sys2Proof.Machine.execLdZ16 f s
  | .ld32 f => Sys2Proof.Machine.execLd32 f s
  | .ld64 f => Sys2Proof.Machine.execLd64 f s
  | .ld128 f => Sys2Proof.Machine.execLd128 f s
  | .st8 f => Sys2Proof.Machine.execSt8 f s
  | .st16 f => Sys2Proof.Machine.execSt16 f s
  | .st32 f => Sys2Proof.Machine.execSt32 f s
  | .st64 f => Sys2Proof.Machine.execSt64 f s
  | .st128 f => Sys2Proof.Machine.execSt128 f s
  | .pf f => Sys2Proof.Machine.execPf f s
  | .ldl32 f => Sys2Proof.Machine.execLdl32 f s
  | .stl32 f => Sys2Proof.Machine.execStl32 f s
  | .lds32 f => Sys2Proof.Machine.execLds32 f s
  | .lds64 f => Sys2Proof.Machine.execLds64 f s
  | .lds128 f => Sys2Proof.Machine.execLds128 f s
  | .sts32 f => Sys2Proof.Machine.execSts32 f s
  | .sts64 f => Sys2Proof.Machine.execSts64 f s
  | .sts128 f => Sys2Proof.Machine.execSts128 f s
  | .ldw32 f => Sys2Proof.Machine.execLdw32 f s
  | .ldw64 f => Sys2Proof.Machine.execLdw64 f s
  | .sldw f => Sys2Proof.Machine.execSldw f s
  | .ldAcq32 f => Sys2Proof.Machine.execLdAcq32 f s
  | .ldAcq64 f => Sys2Proof.Machine.execLdAcq64 f s
  | .stRel32 f => Sys2Proof.Machine.execStRel32 f s
  | .stRel64 f => Sys2Proof.Machine.execStRel64 f s
  | .atomAdd32 f => Sys2Proof.Machine.execAtomAdd32 f s
  | .atomMinS32 f => Sys2Proof.Machine.execAtomMinS32 f s
  | .atomMinZ32 f => Sys2Proof.Machine.execAtomMinZ32 f s
  | .atomMaxS32 f => Sys2Proof.Machine.execAtomMaxS32 f s
  | .atomMaxZ32 f => Sys2Proof.Machine.execAtomMaxZ32 f s
  | .atomAnd32 f => Sys2Proof.Machine.execAtomAnd32 f s
  | .atomOr32 f => Sys2Proof.Machine.execAtomOr32 f s
  | .atomXor32 f => Sys2Proof.Machine.execAtomXor32 f s
  | .atomXchg32 f => Sys2Proof.Machine.execAtomXchg32 f s
  | .atomCas32 f => Sys2Proof.Machine.execAtomCas32 f s
  | .atomFadd32 f => Sys2Proof.Machine.execAtomFadd32 f s
  | .atomAdd64 f => Sys2Proof.Machine.execAtomAdd64 f s
  | .atomMinS64 f => Sys2Proof.Machine.execAtomMinS64 f s
  | .atomMinZ64 f => Sys2Proof.Machine.execAtomMinZ64 f s
  | .atomMaxS64 f => Sys2Proof.Machine.execAtomMaxS64 f s
  | .atomMaxZ64 f => Sys2Proof.Machine.execAtomMaxZ64 f s
  | .atomAnd64 f => Sys2Proof.Machine.execAtomAnd64 f s
  | .atomOr64 f => Sys2Proof.Machine.execAtomOr64 f s
  | .atomXor64 f => Sys2Proof.Machine.execAtomXor64 f s
  | .atomXchg64 f => Sys2Proof.Machine.execAtomXchg64 f s
  | .atomCas64 f => Sys2Proof.Machine.execAtomCas64 f s
  | .atomFadd64 f => Sys2Proof.Machine.execAtomFadd64 f s
  | .atomAddAr32 f => Sys2Proof.Machine.execAtomAddAr32 f s
  | .atomMinSAr32 f => Sys2Proof.Machine.execAtomMinSAr32 f s
  | .atomMinZAr32 f => Sys2Proof.Machine.execAtomMinZAr32 f s
  | .atomMaxSAr32 f => Sys2Proof.Machine.execAtomMaxSAr32 f s
  | .atomMaxZAr32 f => Sys2Proof.Machine.execAtomMaxZAr32 f s
  | .atomAndAr32 f => Sys2Proof.Machine.execAtomAndAr32 f s
  | .atomOrAr32 f => Sys2Proof.Machine.execAtomOrAr32 f s
  | .atomXorAr32 f => Sys2Proof.Machine.execAtomXorAr32 f s
  | .atomXchgAr32 f => Sys2Proof.Machine.execAtomXchgAr32 f s
  | .atomCasAr32 f => Sys2Proof.Machine.execAtomCasAr32 f s
  | .atomFaddAr32 f => Sys2Proof.Machine.execAtomFaddAr32 f s
  | .atomAddAr64 f => Sys2Proof.Machine.execAtomAddAr64 f s
  | .atomMinSAr64 f => Sys2Proof.Machine.execAtomMinSAr64 f s
  | .atomMinZAr64 f => Sys2Proof.Machine.execAtomMinZAr64 f s
  | .atomMaxSAr64 f => Sys2Proof.Machine.execAtomMaxSAr64 f s
  | .atomMaxZAr64 f => Sys2Proof.Machine.execAtomMaxZAr64 f s
  | .atomAndAr64 f => Sys2Proof.Machine.execAtomAndAr64 f s
  | .atomOrAr64 f => Sys2Proof.Machine.execAtomOrAr64 f s
  | .atomXorAr64 f => Sys2Proof.Machine.execAtomXorAr64 f s
  | .atomXchgAr64 f => Sys2Proof.Machine.execAtomXchgAr64 f s
  | .atomCasAr64 f => Sys2Proof.Machine.execAtomCasAr64 f s
  | .atomFaddAr64 f => Sys2Proof.Machine.execAtomFaddAr64 f s
  | .redAdd32 f => Sys2Proof.Machine.execRedAdd32 f s
  | .redMinS32 f => Sys2Proof.Machine.execRedMinS32 f s
  | .redMinZ32 f => Sys2Proof.Machine.execRedMinZ32 f s
  | .redMaxS32 f => Sys2Proof.Machine.execRedMaxS32 f s
  | .redMaxZ32 f => Sys2Proof.Machine.execRedMaxZ32 f s
  | .redAnd32 f => Sys2Proof.Machine.execRedAnd32 f s
  | .redOr32 f => Sys2Proof.Machine.execRedOr32 f s
  | .redXor32 f => Sys2Proof.Machine.execRedXor32 f s
  | .redXchg32 f => Sys2Proof.Machine.execRedXchg32 f s
  | .redFadd32 f => Sys2Proof.Machine.execRedFadd32 f s
  | .redAdd64 f => Sys2Proof.Machine.execRedAdd64 f s
  | .redMinS64 f => Sys2Proof.Machine.execRedMinS64 f s
  | .redMinZ64 f => Sys2Proof.Machine.execRedMinZ64 f s
  | .redMaxS64 f => Sys2Proof.Machine.execRedMaxS64 f s
  | .redMaxZ64 f => Sys2Proof.Machine.execRedMaxZ64 f s
  | .redAnd64 f => Sys2Proof.Machine.execRedAnd64 f s
  | .redOr64 f => Sys2Proof.Machine.execRedOr64 f s
  | .redXor64 f => Sys2Proof.Machine.execRedXor64 f s
  | .redXchg64 f => Sys2Proof.Machine.execRedXchg64 f s
  | .redFadd64 f => Sys2Proof.Machine.execRedFadd64 f s
  | .fence c => Sys2Proof.Machine.execFence c s
  | .fenceAcq c => Sys2Proof.Machine.execFenceAcq c s
  | .fenceRel c => Sys2Proof.Machine.execFenceRel c s
  | .bar l => Sys2Proof.Machine.execBar l s
  | .barArr l => Sys2Proof.Machine.execBarArr l s
  | .barWt l => Sys2Proof.Machine.execBarWt l s
  | .semSet f => Sys2Proof.Machine.execSemSet f s
  | .semAdd f => Sys2Proof.Machine.execSemAdd f s
  | .semWait r1 k => Sys2Proof.Machine.execSemWait r1 k s
  | .hpush f => Sys2Proof.Machine.execHpush f s
  | .hpop f => Sys2Proof.Machine.execHpop f s
  | .hpeek f => Sys2Proof.Machine.execHpeek f s
  | .enqCopy f => Sys2Proof.Machine.execEnqCopy f s
  | .enqGather f => Sys2Proof.Machine.execEnqGather f s
  | .enqScatter f => Sys2Proof.Machine.execEnqScatter f s
  | .enqFill f => Sys2Proof.Machine.execEnqFill f s
  | .enqColl f => Sys2Proof.Machine.execEnqColl f s
  | .wpop f => Sys2Proof.Machine.execWpop f s
  | .wpush f => Sys2Proof.Machine.execWpush f s
  | .launch r1 => Sys2Proof.Machine.execLaunch r1 s
  | .rlnch r1 => Sys2Proof.Machine.execRlnch r1 s
  | .dmark => Sys2Proof.Machine.execDmark s
  | .pdep item n => Sys2Proof.Machine.execPdep item n s
  | .pcopy f => Sys2Proof.Machine.execPcopy f s
  | .ptake f => Sys2Proof.Machine.execPtake f s
  | .gsr r sd => Sys2Proof.Machine.execGsr r sd s
  | .gsrv nw r d => Sys2Proof.Machine.execGsrv nw r d s
  | .ssr r r1 => Sys2Proof.Machine.execSsr r r1 s
  | .clk sd => Sys2Proof.Machine.execClk sd s
  | .lclk sd => Sys2Proof.Machine.execLclk sd s
  | .spool i1 sd => Sys2Proof.Machine.execSpool i1 sd s
  | .bound b r1 => Sys2Proof.Machine.execBound b r1 s
  | .poison a g => Sys2Proof.Machine.execPoison a g s
  | .mx f => Sys2Proof.Machine.execMx f s
  | .mxSp f => Sys2Proof.Machine.execMxSp f s
  | .mzero dq => Sys2Proof.Machine.execMzero dq s
  | .mld f => Sys2Proof.Machine.execMld f s
  | .mst f => Sys2Proof.Machine.execMst f s
  | .mmovVm dq e d => Sys2Proof.Machine.execMmovVm dq e d s
  | .mmovMv dq e a => Sys2Proof.Machine.execMmovMv dq e a s
  | .mxq q a => Sys2Proof.Machine.execMxq q a s
  | .loadLand g n => Sys2Proof.Machine.execLoadLand g n s
  | .storeDrain g => Sys2Proof.Machine.execStoreDrain g s
  | .atomicPerform g => Sys2Proof.Machine.execAtomicPerform g s
  | .releaseComplete g => Sys2Proof.Machine.execReleaseComplete g s
  | .translationWalkComplete die asn va => Sys2Proof.Machine.execTranslationWalkComplete die asn va s
  | .cellarSpillAck core => Sys2Proof.Machine.execCellarSpillAck core s
  | .refillComplete g => Sys2Proof.Machine.execRefillComplete g s
  | .reformBinTimeout team bin => Sys2Proof.Machine.execReformBinTimeout team bin s
  | .reformBinLeave team => Sys2Proof.Machine.execReformBinLeave team s
  | .yieldTimeout g => Sys2Proof.Machine.execYieldTimeout g s
  | .trapRecordWrite g => Sys2Proof.Machine.execTrapRecordWrite g s
  | .faultPark g => Sys2Proof.Machine.execFaultPark g s
  | .launchAnswer g => Sys2Proof.Machine.execLaunchAnswer g s
  | .jobStart core job => Sys2Proof.Machine.execJobStart core job s
  | .jobChunkDone core job => Sys2Proof.Machine.execJobChunkDone core job s
  | .jobComplete core job => Sys2Proof.Machine.execJobComplete core job s
  | .collectiveStep core job data => Sys2Proof.Machine.execCollectiveStep core job data s
  | .mxStart core => Sys2Proof.Machine.execMxStart core s
  | .mxComplete core => Sys2Proof.Machine.execMxComplete core s
  | .pantryCopyArrive id => Sys2Proof.Machine.execPantryCopyArrive id s
  | .pantryTakeArrive id => Sys2Proof.Machine.execPantryTakeArrive id s
  | .pantryDepositArrive id => Sys2Proof.Machine.execPantryDepositArrive id s
  | .pantryWithdrawalArrive id => Sys2Proof.Machine.execPantryWithdrawalArrive id s
  | .pantryHeldResend id => Sys2Proof.Machine.execPantryHeldResend id s
  | .pantryAnswerLand id => Sys2Proof.Machine.execPantryAnswerLand id s
  | .wpopDeliver vf w => Sys2Proof.Machine.execWpopDeliver vf w s
  | .wpushAppend vf w => Sys2Proof.Machine.execWpushAppend vf w s
  | .messageReceive die stamp => Sys2Proof.Machine.execMessageReceive die stamp s
  | .teamPlace part => Sys2Proof.Machine.execTeamPlace part s
  | .teamMove team core => Sys2Proof.Machine.execTeamMove team core s
  | .sliceEnd part => Sys2Proof.Machine.execSliceEnd part s
  | .enginePreemptAck grid e => Sys2Proof.Machine.execEnginePreemptAck grid e s
  | .preemptTimeout grid => Sys2Proof.Machine.execPreemptTimeout grid s
  | .hangWindowEnd => Sys2Proof.Machine.execHangWindowEnd s
  | .studyMigrationArrive g crcFail => Sys2Proof.Machine.execStudyMigrationArrive g crcFail s
  | .studyReturnComplete g badRows badState badControl => Sys2Proof.Machine.execStudyReturnComplete g badRows badState badControl s
  | .launchCmd vf q => Sys2Proof.Machine.execLaunchCmd vf q s
  | .relaunch vf q => Sys2Proof.Machine.execRelaunch vf q s
  | .append vf q => Sys2Proof.Machine.execAppend vf q s
  | .copy vf q => Sys2Proof.Machine.execCopy vf q s
  | .signal vf q => Sys2Proof.Machine.execSignal vf q s
  | .wait vf q => Sys2Proof.Machine.execWait vf q s
  | .waitRetest vf q => Sys2Proof.Machine.execWaitRetest vf q s
  | .mark vf q => Sys2Proof.Machine.execMark vf q s
  | .studyArm vf q => Sys2Proof.Machine.execStudyArm vf q s
  | .studyMark vf q => Sys2Proof.Machine.execStudyMark vf q s
  | .studyReturn vf q => Sys2Proof.Machine.execStudyReturn vf q s
  | .studyResume vf q => Sys2Proof.Machine.execStudyResume vf q s
  | .inval vf q => Sys2Proof.Machine.execInval vf q s
  | .answer vf q => Sys2Proof.Machine.execAnswer vf q s
  | .vfconfTrapVector vf q => Sys2Proof.Machine.execVfconfTrapVector vf q s
  | .vfconfServiceRing vf q => Sys2Proof.Machine.execVfconfServiceRing vf q s
  | .vfconfErrorRing vf q => Sys2Proof.Machine.execVfconfErrorRing vf q s
  | .vfconfPriorityCap vf q => Sys2Proof.Machine.execVfconfPriorityCap vf q s
  | .vfconfSliceLength vf q => Sys2Proof.Machine.execVfconfSliceLength vf q s
  | .vfconfAddressSpace vf q => Sys2Proof.Machine.execVfconfAddressSpace vf q s
  | .vfconfPartition vf q => Sys2Proof.Machine.execVfconfPartition vf q s
  | .vfconfPantryAllocate vf q => Sys2Proof.Machine.execVfconfPantryAllocate vf q s
  | .vfconfPantryFree vf q => Sys2Proof.Machine.execVfconfPantryFree vf q s
  | .wqconfCreate vf q => Sys2Proof.Machine.execWqconfCreate vf q s
  | .wqconfDestroy vf q => Sys2Proof.Machine.execWqconfDestroy vf q s
  | .doorbell vf q v => Sys2Proof.Machine.execDoorbell vf q v s
  | .qcbaddr vf q v => Sys2Proof.Machine.execQcbaddr vf q v s
  | .svccons vf v => Sys2Proof.Machine.execSvccons vf v s
  | .errcons vf v => Sys2Proof.Machine.execErrcons vf v s
  | .exansAcknowledge vf q ack => Sys2Proof.Machine.execExansAcknowledge vf q ack s
  | .exansResume vf q ack => Sys2Proof.Machine.execExansResume vf q ack s
  | .exansSkip vf q ack => Sys2Proof.Machine.execExansSkip vf q ack s
  | .exansAbort vf q ack => Sys2Proof.Machine.execExansAbort vf q ack s
  | .pfErrorRingSet size v => Sys2Proof.Machine.execPfErrorRingSet size v s
  | .pferrcons v => Sys2Proof.Machine.execPferrcons v s
  | .cut id => Sys2Proof.Machine.execCut id s
  | .cutResume id => Sys2Proof.Machine.execCutResume id s
  | .partWrite n v => Sys2Proof.Machine.execPartWrite n v s
  | .registerWrite vf off v => Sys2Proof.Machine.execRegisterWrite vf off v s
  | .hostApertureWrite vf va data => Sys2Proof.Machine.execHostApertureWrite vf va data s
  | .hostApertureRead vf va n => Sys2Proof.Machine.execHostApertureRead vf va n s
  | .linkFlitReceive flit crcOk tagOk key => Sys2Proof.Machine.execLinkFlitReceive flit crcOk tagOk key s
  | .linkNakReceive flit => Sys2Proof.Machine.execLinkNakReceive flit s
  | .linkAckReceive flit => Sys2Proof.Machine.execLinkAckReceive flit s
  | .linkAckTimeout => Sys2Proof.Machine.execLinkAckTimeout s
  | .linkRetrainComplete t => Sys2Proof.Machine.execLinkRetrainComplete t s
  | .keyRollover => Sys2Proof.Machine.execKeyRollover s
  | .shutonMarkerReceive port id => Sys2Proof.Machine.execShutonMarkerReceive port id s
  | .powerGood => Sys2Proof.Machine.execPowerGood s
  | .imageVerified okA okB => Sys2Proof.Machine.execImageVerified okA okB s
  | .safeFunction link stk => Sys2Proof.Machine.execSafeFunction link stk s
  | .fullFunction stk ports => Sys2Proof.Machine.execFullFunction stk ports s
  | .recoveryImageWrite image => Sys2Proof.Machine.execRecoveryImageWrite image s
  | .moduleReset => Sys2Proof.Machine.execModuleReset s
  | .orderlyPowerDown => Sys2Proof.Machine.execOrderlyPowerDown s
  | .thermalSample temps => Sys2Proof.Machine.execThermalSample temps s
  | .wearHourlyWrite => Sys2Proof.Machine.execWearHourlyWrite s
  | .patrolScrub sector bad => Sys2Proof.Machine.execPatrolScrub sector bad s
  | .firmwareWatchdogExpiry die recent => Sys2Proof.Machine.execFirmwareWatchdogExpiry die recent s
  | .illegalInstruction kind word => Sys2Proof.Machine.execIllegalInstruction kind word s
  | .fetchFault => Sys2Proof.Machine.execFetchFault s
  | .copyComplete vf q => Sys2Proof.Machine.execCopyComplete vf q s
  | .planeClear asn => Sys2Proof.Machine.execPlaneClear asn s
  | .wipeAcknowledged frame => Sys2Proof.Machine.execWipeAcknowledged frame s
  | .firmwareReloadComplete die => Sys2Proof.Machine.execFirmwareReloadComplete die s
  | .powerLoss => Sys2Proof.Machine.execPowerLoss s

end Sys2Proof.Machine
end

