-- ==== Sys2Proof/Machine/Ready.lean ====
section
/-! DEFINITION. The issue of the group whose turn it is: fetch, decode, execute; and the groups that are ready as a `yield` issues (R190, R315). -/

namespace Sys2Proof.Machine

/-- The group whose turn it is issues: fetch (R64, R111), decode (R133), execute. A group that cannot issue does nothing, and one whose code is to come over a link
that retrains waits (R462). -/
noncomputable def issueOf (s : State) : Out :=
  match s.ctx with
  | none => .next s
  | some c =>
    if s.fetchHeld c then .next s
    else match s.fetch c with
    | .error _ => exec .fetchFault (s.fetched c)
    | .ok (w, _) =>
      match decode w with
      | .ok i => exec i (s.fetched c)
      | .bad kind => exec (.illegalInstruction kind (BitVec.ofNat 32 w)) (s.fetched c)

/-- A group is ready (R315): it has an eligible lane, its next instruction would not stall, since its issue changes the group, and what that needs is free,
which the spec's timing settles (LOG 104). -/
noncomputable def State.readyNow (s : State) (k : Nat) : Bool :=
  (s.grp k).eligible != 0 && Config.portFree s.issues k && match issueOf { s with cur := k } with
    | .next t => t.grp k != s.grp k
    | _ => false

/-- The next instruction of the group whose turn it is is a `yield`. -/
noncomputable def State.atYield (s : State) : Bool :=
  match s.ctx with
  | none => false
  | some c => match s.fetch c with
    | .ok (w, _) => match decode w with
      | .ok .yield => true
      | _ => false
    | .error _ => false

/-- As a `yield` issues, the groups that are ready are noted (R190). -/
noncomputable def State.withReadies (s : State) : State :=
  if s.atYield then { s with readies := (s.groups.filter fun e => s.readyNow e.1).map Prod.fst } else s

end Sys2Proof.Machine
end

