-- ==== Sys2Proof/Machine/Step.lean ====
section
/-! DEFINITION. One step of the module: the next choice of the agenda, or the issue of the group whose turn it is (LOG 1). -/

namespace Sys2Proof.Machine

/-- The group whose turn it is issues; the groups that are ready as a `yield` issues are noted before (R190). -/
noncomputable def issueStep (s : State) : Out := issueOf s.withReadies

/-- The steps of other agents: the rows of the opcode table without an encoding, but for the two that are ways to issue. -/
def Instr.agent (i : Instr) : Bool :=
  !i.encoded && match i with
    | .illegalInstruction _ _ | .fetchFault => false
    | _ => true

/-- The act of the agent whose turn it is. Without power nothing happens but POWER_GOOD (R383). -/
noncomputable def act (s : State) : Out :=
  match s.agenda with
  | .event i :: t =>
    if !s.mod_.powered && i != .powerGood then .fault .poweredOff
    else if Instr.agent i then exec i { s with agenda := t } else .next { s with agenda := t }
  | .issue g :: t => if s.mod_.powered then issueStep { s with agenda := t, cur := g } else .fault .poweredOff
  | [] => if s.mod_.powered then issueStep s else .fault .poweredOff

/-- One step: an act, and what the cores do of themselves after it. -/
noncomputable def step (s : State) : Host.Outcome State Fault Refusal := thenDo State.housekeep (act s)

/-- A group with all its lanes at address 0, in a frame of the greatest size, for `State.withFetchWord`. -/
def fetchGroup : Group :=
  { live := true, grid := 1, team := 1
    lanes := { present := BitVec.allOnes 64, tid := Vector.ofFn fun i : Fin 64 => BitVec.ofNat 10 i.val }
    frames := [{ nv := 60, nm := 128, lanes := BitVec.allOnes 64 }] }

/-- The state in which the next step fetches and runs the instruction of a table word (LOG 8): its bytes at physical address 0, which the page tables at
0x10000 to 0x12008 map at address 0 of an address space; a grid, a team and a group on die 0, core 0, slot 0 at that address. -/
def State.withFetchWord (s : State) (nbits w : Nat) : State :=
  { s with
    groups := put s.groups 0 fetchGroup
    teams := put s.teams 1 { live := true, grid := 1, gang := 1, gangTeams := [1], slots := [0] }
    grids := put s.grids 1 { noGrid with num := 1 }
    spaces := put s.spaces 0 { s.space 0 with root := some 0x10000 }
    vfs := put s.vfs 0 { s.vf 0 with asn := some 0 }
    mem := { s.mem with
      dev := (((s.mem.dev.writeN 0 (bytesOfWord (w % 2 ^ nbits))).writeN 0x10000 (leBytes 8 0x11001)).writeN 0x11000 (leBytes 8 0x12001)).writeN 0x12000
        (leBytes 8 0xF)
      devPx := s.mem.devPx.filter fun x => !(x == 0 || x == 2048 || x == 2176 || x == 2304) }
    dies := put s.dies 0 { s.die 0 with tlb := (s.die 0).tlb.filter fun e => e.asn != 0 }
    cores := put s.cores 0 { s.core 0 with tlb := (s.core 0).tlb.filter fun e => e.asn != 0 }
    icaches := drop s.icaches 0
    cur := 0
    agenda := [] }

end Sys2Proof.Machine
end

