-- ==== Sys2Proof/Safety.lean ====
section
/-! DEFINITION. What counts as a safe step, and the terms in which the statements speak: when a group issues, what an instruction that only
touches registers leaves, and what stays. -/

namespace Sys2Proof
open Machine

/-- A step that neither stops the module nor is refused. -/
def Safe (s : State) : Prop := ∃ t, step s = .next t

/-! ### When a group issues -/

/-- The group of the context `c` issues in `s`: it is its turn, some lane is eligible (R39, R40), its top frame is not in the cellar (R185), no fault of
an earlier instruction is due (R424, R438), pacing does not hold it (R346), it runs at home, not on a study core (R335), and it replays no instruction
whose operands it has captured (R445). -/
structure Ready (s : State) (c : Ctx) : Prop where
  turn : s.ctx = some c
  free : s.front c = none
  pace : s.paceHeld c.key = false
  home : c.g.study.phase = 0
  first : c.g.replay = none

/-- The lanes of the issue mask in which a guard holds (R114). -/
def active (c : Ctx) (g : Guard) : Mask := c.mask &&& c.g.guardMask g

/-- An instruction that reads and writes what `o` lists goes ahead: no row or scalar of it awaits an access or a matrix operation in flight (R211,
R256), it has no stall of its own, and none of the faults of R412 that come before an address is there. -/
def Goes (s : State) (c : Ctx) (act : Mask) (o : Op) : Prop :=
  s.hazard c.key act o = false ∧ o.stall = false ∧ c.g.faultBefore act o = none

/-- The store FIFO of the group has room (R209). -/
def FifoRoom (c : Ctx) : Prop := c.g.fifoUsed < 64
/-- The core takes n more memory requests now (R209). -/
abbrev AskRoom (s : State) (c : Ctx) (n : Nat) : Prop := s.requests (coreOf c.key) + n ≤ 1024
/-- The accesses of an instruction pass their checks (R412) and reach `accs`. -/
def Reaches (s : State) (c : Ctx) (reqs : List Req) (accs : List Acc) : Prop := s.checkAll c.g (coreOf c.key) reqs = .ok accs

/-! ### What stays -/

/-- A group waits for nothing but `yield`, or for the same as before: what another group's issue may change of it (R190). -/
def SameWaits (g g' : Group) : Prop :=
  g'.lanes.waits.filter (fun w => !Wait.yields w.1) = g.lanes.waits.filter (fun w => !Wait.yields w.1)

/-- An issue of group `k` that changes nothing beside the group: memory, cores, dies, address spaces, virtual functions, partitions, the module and every
other group stay (but for the waits at `yield` of its scheduler's groups, the undo state of guarded teams, the progress mark of grids and the slots of
study cores). -/
structure Beside (s t : State) (k : Nat) : Prop where
  rest : t = { s with groups := t.groups, teams := t.teams, grids := t.grids, cores := t.cores, issues := t.issues, studies := t.studies }
  cores : ∀ j, t.core j = s.core j
  teams : ∀ j, t.team j = { s.team j with guard := (t.team j).guard }
  grids : ∀ j, t.grid j = { s.grid j with run := { (s.grid j).run with progress := (t.grid j).run.progress } }
  studies : ∀ j, t.study j = { s.study j with slots := (t.study j).slots }
  others : ∀ j, j ≠ k → t.grp j = { s.grp j with lanes := { (s.grp j).lanes with waits := (t.grp j).lanes.waits } } ∧ SameWaits (s.grp j) (t.grp j)

/-! ### What an instruction does to its group -/

/-- What the rules give the registers of the issuing group. -/
structure Want where
  /-- Length of the instruction. -/
  len : Nat := 4
  /-- Lanes of the v rows, slots and predicate that are written. -/
  act : Mask := 0
  /-- v rows, with the word of each lane. -/
  rows : List (Nat × (Nat → W32)) := []
  /-- The v rows are not written, only the slots (R115). -/
  nw : Bool := false
  /-- m rows, with the lanes written and the word of each. -/
  mrows : List (Nat × Mask × (Nat → W32)) := []
  /-- A scalar. -/
  sc : Option (Nat × W64) := none
  /-- A predicate. -/
  pred : Option (PReg × Mask) := none
  /-- Where a lane goes on, when it is not the next instruction. -/
  pc : Nat → Option W64 := fun _ => none
  /-- The instruction may wait (R39): its slots are invalid afterwards (R116). -/
  wait : Bool := false
  /-- The waits that lanes enter (R39). -/
  waits : List (Wait × Mask) := []
  /-- The group's accesses in flight. -/
  mio : Mio → Mio := fun m => m
  /-- The answer that the group stalls for. -/
  stall : Option Stall := none

/-- The word wanted of a v row. -/
def Want.row (w : Want) (r : Nat) : Option (Nat → W32) := (w.rows.find? fun x => x.1 == r).map Prod.snd
/-- The lanes and words wanted of an m row. -/
def Want.mrow (w : Want) (r : Nat) : Option (Mask × (Nat → W32)) := (w.mrows.find? fun x => x.1 == r).map Prod.snd
/-- The words wanted of a bypass slot (R116). -/
def Want.slot (w : Want) (b : Nat) : Option (Nat → W32) := (w.rows.find? fun x => x.1 % 4 == b).map Prod.snd

/-- The registers of group `g'` are those of `g` with what `w` wants, and nothing else (R112 to R116, R144 to R146, R178, R438). -/
structure Registers (g g' : Group) (w : Want) : Prop where
  word : ∀ r l, l < 64 → lane (g'.row r).w l = match w.row r with
    | some v => if has w.act l && !w.nw then v l else lane (g.row r).w l
    | none => lane (g.row r).w l
  poison : ∀ r, (g'.row r).px = match w.row r with
    | some _ => if w.nw then (g.row r).px else (g.row r).px &&& ~~~ w.act
    | none => (g.row r).px
  mword : ∀ r l, l < 64 → lane (g'.mrow r).w l = match w.mrow r with
    | some (m, v) => if has m l then v l else lane (g.mrow r).w l
    | none => lane (g.mrow r).w l
  mpoison : ∀ r, (g'.mrow r).px = match w.mrow r with
    | some (m, _) => (g.mrow r).px &&& ~~~ m
    | none => (g.mrow r).px
  scalar : ∀ r, g'.sreg r = match w.sc with
    | some (d, v) => if r = d then ⟨v, false⟩ else g.sreg r
    | none => g.sreg r
  pred : ∀ p, g'.pred p = match w.pred with
    | some (d, v) => if p = d then (v &&& w.act) ||| (g.pred p &&& ~~~ w.act) else g.pred p
    | none => g.pred p
  valid : g'.regs.valid = if w.wait || decide (15 ≤ g.regs.count) then 0
    else if w.act = 0 then g.regs.valid else w.rows.foldl (fun v x => v ||| BitVec.ofNat 4 (2 ^ (x.1 % 4))) g.regs.valid
  slot : ∀ b l, b < 4 → l < 64 → lane (get (Vector.replicate 64 0) g'.regs.slots b) l = match w.slot b with
    | some v => if has w.act l then v l else lane (get (Vector.replicate 64 0) g.regs.slots b) l
    | none => lane (get (Vector.replicate 64 0) g.regs.slots b) l
  /-- The other registers of the group. -/
  system : g'.regs = { g.regs with gs := g'.regs.gs, p := g'.regs.p, slots := g'.regs.slots, valid := g'.regs.valid, count := g'.regs.count }
  /-- The frame chain: its depth, its lower frames, and what the top frame is; an instruction that may wait may reserve its rows on a study core (R341). -/
  lower : g'.frames.tail = g.frames.tail
  top : g'.top = { g.top with v := g'.top.v, m := g'.top.m, sc := g'.top.sc, away := g'.top.away }

/-- Where the lanes of a group are after an issue (R40, R110). -/
def Onward (c : Ctx) (g' : Group) (w : Want) : Prop :=
  ∀ l, l < 64 → pcOf g'.lanes.pc l = if has c.mask l then (w.pc l).getD (c.pc + BitVec.ofNat 64 w.len) else pcOf c.g.lanes.pc l

/-- The group stays what it is, but for its registers and program counters and what `w` wants of its waits, its accesses in flight and its stall. -/
def Remains (g g' : Group) (w : Want) : Prop :=
  g' = { g with lanes := { g.lanes with pc := g'.lanes.pc, waits := g.lanes.waits ++ w.waits }, frames := g'.frames, regs := g'.regs,
                mio := w.mio g.mio, stall := w.stall, study := g'.study, replay := none, age := g'.age }

/-- The instruction has issued: the group has what `w` wants, and nothing else has changed. -/
structure Issued (s t : State) (c : Ctx) (w : Want) : Prop where
  beside : Beside s t c.key
  regs : Registers c.g (t.grp c.key) w
  onward : Onward c (t.grp c.key) w
  remains : Remains c.g (t.grp c.key) w

end Sys2Proof
end

