-- ==== Sys2Proof/Certificates/Slice0/Obligations.lean ====
section
/-! DEFINITION. The statements for the provers. First the shapes that several statements share, then one `Obligations.<Name>` for each. -/

namespace Sys2Proof.Claims
open Sys2Proof Sys2Proof.Machine

/-! ### Lane instructions -/

/-- Instruction `i`, of `len` bytes under guard `g`, that reads and writes what `o` lists: when it goes ahead it completes, row `d` gets in each active lane
a word that `P` allows, and nothing else changes. -/
def RowResult (i : Instr) (g : Guard) (len : Nat) (o : Op) (d : VReg) (nw : Bool) (P : Ctx → Nat → W32 → Prop) : Prop :=
  i.wf = true → ∀ s c, Ready s c → Goes s c (active c g) o →
    ∃ (t : State) (v : Nat → W32), exec i s = .next t ∧ Issued s t c { len := len, act := active c g, rows := [(d.val, v)], nw := nw } ∧
      ∀ l, l < 64 → has (active c g) l → P c l (v l)

/-- The same for a pair d, d + 1 (R145). -/
def PairResult (i : Instr) (g : Guard) (o : Op) (d : VReg) (nw : Bool) (P : Ctx → Nat → W64 → Prop) : Prop :=
  i.wf = true → ∀ s c, Ready s c → Goes s c (active c g) o →
    ∃ (t : State) (v : Nat → W64), exec i s = .next t ∧
      Issued s t c { act := active c g, rows := [(d.val, fun l => loW (v l)), (d.val + 1, fun l => hiW (v l))], nw := nw } ∧
      ∀ l, l < 64 → has (active c g) l → P c l (v l)

/-- The word of a source in lane L. -/
def word (c : Ctx) (x : VSrc) (l : Nat) : W32 := lane (c.g.src x) l
/-- The word of row r in lane L. -/
def rowWord (c : Ctx) (r : VReg) (l : Nat) : W32 := lane (c.g.row r.val).w l
/-- Pair(v, L) (R145). -/
def pair (c : Ctx) (x : VSrc) (l : Nat) : W64 := c.g.pairAt x l

/-- R149 for one element: x, y and z are the elements of a, b and d, r the result, n the width. -/
def IntHolds (o : IOp) (n : Nat) (x y z r : BitVec n) : Prop :=
  match o with
  | .add => r.toNat = (x.toNat + y.toNat) % 2 ^ n
  | .sub => (r.toNat : Int) = ((x.toNat : Int) - (y.toNat : Int)) % 2 ^ n
  | .mul => r.toNat = x.toNat * y.toNat % 2 ^ n
  | .mulhS => (r.toNat : Int) = x.toInt * y.toInt / 2 ^ n % 2 ^ n
  | .mulhZ => r.toNat = x.toNat * y.toNat / 2 ^ n
  | .mad => r.toNat = (x.toNat * y.toNat + z.toNat) % 2 ^ n
  | .minS => (r = x ∨ r = y) ∧ r.toInt = min x.toInt y.toInt
  | .minZ => (r = x ∨ r = y) ∧ r.toNat = min x.toNat y.toNat
  | .maxS => (r = x ∨ r = y) ∧ r.toInt = max x.toInt y.toInt
  | .maxZ => (r = x ∨ r = y) ∧ r.toNat = max x.toNat y.toNat
  | .and => ∀ i, i < n → r.getLsbD i = (x.getLsbD i && y.getLsbD i)
  | .or => ∀ i, i < n → r.getLsbD i = (x.getLsbD i || y.getLsbD i)
  | .xor => ∀ i, i < n → r.getLsbD i = (x.getLsbD i ^^ y.getLsbD i)
  | .andn => ∀ i, i < n → r.getLsbD i = (x.getLsbD i && !y.getLsbD i)
  | .shl => if n ≤ y.toNat then r.toNat = 0 else r.toNat = x.toNat * 2 ^ y.toNat % 2 ^ n
  | .shr => if n ≤ y.toNat then r.toNat = 0 else r.toNat = x.toNat / 2 ^ y.toNat
  | .sar => if n ≤ y.toNat then ∀ i, i < n → r.getLsbD i = x.getLsbD (n - 1) else r.toInt = x.toInt / 2 ^ y.toNat
  | .rotl => ∀ i, i < n → r.getLsbD ((i + y.toNat) % n) = x.getLsbD i
  | .adds => r.toInt = max (-(2 ^ (n - 1) : Int)) (min (2 ^ (n - 1) - 1) (x.toInt + y.toInt))
  | .subs => r.toInt = max (-(2 ^ (n - 1) : Int)) (min (2 ^ (n - 1) - 1) (x.toInt - y.toInt))

/-- Element j of width n of a word (R83). -/
def elem (n : Nat) (x : W32) (j : Nat) : BitVec n := x.extractLsb' (n * j) n

/-- R149 on the elements of a 32-bit word, by its layout (R83). -/
def IntWord (o : IOp) (ty : IntTy) (x y z r : W32) : Prop :=
  match ty with
  | .h16 => ∀ j, j < 2 → IntHolds o 16 (elem 16 x j) (elem 16 y j) (elem 16 z j) (elem 16 r j)
  | .b8 => ∀ j, j < 4 → IntHolds o 8 (elem 8 x j) (elem 8 y j) (elem 8 z j) (elem 8 r j)
  | _ => IntHolds o 32 x y z r

/-- The instruction of an operation of R149. -/
def intInstr : IOp → V3 IntTy → Instr
  | .add => .add | .sub => .sub | .mul => .mul | .mulhS => .mulhS | .mulhZ => .mulhZ | .mad => .mad | .minS => .minS | .minZ => .minZ
  | .maxS => .maxS | .maxZ => .maxZ | .and => .and | .or => .or | .xor => .xor | .andn => .andn | .shl => .shl | .shr => .shr
  | .sar => .sar | .rotl => .rotl | .adds => .adds | .subs => .subs

/-- Sources and destination of an instruction of format V3 with k rows each; d is a third source of `mad`, `fma` and `fdot2`. -/
def opV3 (k : Nat) (a b : VSrc) (third : Bool) (nw : Bool) (d : VReg) : Op :=
  { srcs := [(a, k), (b, k)] ++ (if third then [(.row d, k)] else []), dsts := [(d.val, k)], nw := nw }
/-- One source and a destination. -/
def opU (k : Nat) (a : VSrc) (nw : Bool) (d : VReg) : Op := { srcs := [(a, k)], dsts := [(d.val, k)], nw := nw }

/-- The instruction of an operation of R152. -/
def floInstr : FOp2 → V3 FloTy → Instr
  | .add => .fadd | .sub => .fsub | .mul => .fmul | .fma => .fma | .min => .fmin | .max => .fmax

/-- A compact form whose first source is its destination (R117). -/
def opC (f : C16) : Op := { len := 2, srcs := [(.row f.d, 1), (f.e, 1)], dsts := [(f.d.val, 1)] }

/-! ### Predicates and scalars -/

/-- Instruction `i` writes predicate `pd` in the active lanes with the truth values that `P` gives. -/
def PredResult (i : Instr) (g : Guard) (o : Op) (pd : PReg) (P : Ctx → Nat → Prop) : Prop :=
  i.wf = true → ∀ s c, Ready s c → Goes s c (active c g) o →
    ∃ (t : State) (m : Mask), exec i s = .next t ∧ Issued s t c { act := active c g, pred := some (pd, m) } ∧
      ∀ l, l < 64 → has (active c g) l → (has m l = true ↔ P c l)

/-- Instruction `i` writes scalar `sd`, and nothing else, with a value that `P` allows (R146). -/
def ScalarResult (i : Instr) (g : Guard) (o : Op) (sd : SReg) (P : Ctx → W64 → Prop) : Prop :=
  i.wf = true → ∀ s c, Ready s c → Goes s c (active c g) o →
    ∃ (t : State) (v : W64), exec i s = .next t ∧ Issued s t c { sc := some (sd.val, v) } ∧ P c v

/-- The comparison of floating-point values by the code of R121 (R87, R154): −0 equals +0, and a NaN makes all but `ne` and `un` false. -/
def FloatCmp (cc : Nat) (x y : FV) : Prop :=
  let nan := x.isNan = true ∨ y.isNan = true
  match cc with
  | 0 => ¬ nan ∧ FV.lt x y = false ∧ FV.lt y x = false
  | 1 => nan ∨ FV.lt x y = true ∨ FV.lt y x = true
  | 2 => ¬ nan ∧ FV.lt x y = true
  | 3 => ¬ nan ∧ FV.lt y x = false
  | 4 => ¬ nan ∧ FV.lt y x = true
  | 5 => ¬ nan ∧ FV.lt x y = false
  | 6 => nan
  | _ => ¬ nan

/-- pos of R164. -/
def fieldPos (b : W32) : Nat := b.toNat % 32
/-- m of R164. -/
def fieldLen (b : W32) : Nat := min (b.toNat / 2 ^ 8 % 32 + 1) (32 - fieldPos b)

/-- The comparison of integers by the code of R121. -/
def IntCmp (n cc : Nat) (x y : BitVec n) : Prop :=
  match cc with
  | 0 => x.toInt = y.toInt
  | 1 => x.toInt ≠ y.toInt
  | 2 => x.toInt < y.toInt
  | 3 => x.toInt ≤ y.toInt
  | 4 => y.toInt < x.toInt
  | 5 => y.toInt ≤ x.toInt
  | 6 => x.toInt < 0
  | _ => 0 ≤ x.toInt

/-- R169: the 64-bit result r of a scalar operation on x and y. -/
def ScalarHolds (o : SOp) (x y r : W64) : Prop :=
  match o with
  | .add => r.toNat = (x.toNat + y.toNat) % 2 ^ 64
  | .sub => (r.toNat : Int) = ((x.toNat : Int) - (y.toNat : Int)) % 2 ^ 64
  | .mul => r.toNat = x.toNat * y.toNat % 2 ^ 64
  | .mulh => (r.toNat : Int) = x.toInt * y.toInt / 2 ^ 64 % 2 ^ 64
  | .div => if y = 0 then r = 0 else (r.toNat : Int) = x.toInt.tdiv y.toInt % 2 ^ 64
  | .divz => if y = 0 then r = 0 else r.toNat = x.toNat / y.toNat
  | .rem => if y = 0 then r = x else r.toInt = x.toInt.tmod y.toInt
  | .and => ∀ i, i < 64 → r.getLsbD i = (x.getLsbD i && y.getLsbD i)
  | .or => ∀ i, i < 64 → r.getLsbD i = (x.getLsbD i || y.getLsbD i)
  | .xor => ∀ i, i < 64 → r.getLsbD i = (x.getLsbD i ^^ y.getLsbD i)
  | .shl => if 64 ≤ y.toNat then r = 0 else r.toNat = x.toNat * 2 ^ y.toNat % 2 ^ 64
  | .shr => if 64 ≤ y.toNat then r = 0 else r.toNat = x.toNat / 2 ^ y.toNat
  | .sar => if 64 ≤ y.toNat then ∀ i, i < 64 → r.getLsbD i = x.getLsbD 63 else r.toInt = x.toInt / 2 ^ y.toNat
  | .min => r.toInt = min x.toInt y.toInt
  | .max => r.toInt = max x.toInt y.toInt
  | .minz => r.toNat = min x.toNat y.toNat
  | .maxz => r.toNat = max x.toNat y.toNat
  | .mov => r = x
  | .slt => r.toNat = if x.toInt < y.toInt then 1 else 0
  | .sltz => r.toNat = if x.toNat < y.toNat then 1 else 0
  | .seq => r.toNat = if x = y then 1 else 0

/-- The instruction of an operation of R169; `mov` has its own form. -/
def scalarInstr : SOp → SS → Instr
  | .add, f => .sadd f | .sub, f => .ssub f | .mul, f => .smul f | .mulh, f => .smulh f | .div, f => .sdiv f | .divz, f => .sdivz f | .rem, f => .srem f
  | .and, f => .sand f | .or, f => .sor f | .xor, f => .sxor f | .shl, f => .sshl f | .shr, f => .sshr f | .sar, f => .ssar f | .min, f => .smin f
  | .max, f => .smax f | .minz, f => .sminz f | .maxz, f => .smaxz f | .mov, f => .smov f.sa f.sd | .slt, f => .sslt f | .sltz, f => .ssltz f
  | .seq, f => .sseq f

/-- Lane l is active and predicate `pa` holds in it. -/
def voted (c : Ctx) (g : Guard) (pa : PReg) (l : Nat) : Prop := has (active c g) l = true ∧ has (c.g.pred pa) l = true

/-- R165 in one lane: the word of the source lane `src`, when it is a lane and active, and otherwise the lane's own. `shfl.up` has no source below lane 0. -/
def Shuffled (c : Ctx) (f : V2) (up : Bool) (l : Nat) (r : W32) (src : Nat) : Prop :=
  r = if src < 64 ∧ has (active c f.g) src ∧ (up = true → (word c f.b l).toNat % 64 ≤ l) then word c f.a src else word c f.a l

/-- Combine of R102 for f32 sums: an absent operand lets the other through. -/
def addPair (x y : Option W32) : Option W32 :=
  match x, y with
  | some a, some b => some (fopWord .add .f32 a b 0)
  | some a, none => some a
  | none, b => b
/-- The pairwise tree of R102 in lane order: element j of level n. -/
def addTree (x : Nat → Option W32) : Nat → Nat → Option W32
  | 0, j => x j
  | n + 1, j => addPair (addTree x n (2 * j)) (addTree x n (2 * j + 1))

/-- a is below b as `fmin` and `fmax` order the numbers of f32 (R87): −0 is below +0. -/
def f32Below (a b : W32) : Prop :=
  FV.lt (fmt32.val a.toNat) (fmt32.val b.toNat) = true ∨ (a = 0x80000000 ∧ b = 0)

/-- R87 over several lanes (R102): r is the extreme of the words x of the lanes that satisfy p, by the order `before`, NaNs aside; the identity without a
lane, the lane's own word with one, and the canonical NaN when several hold nothing but NaNs. -/
def f32Extreme (before : W32 → W32 → Prop) (ident : W32) (p : Nat → Bool) (x : Nat → W32) (r : W32) : Prop :=
  let nan (m : Nat) : Prop := (fmt32.val (x m).toNat).isNan = true
  ((∀ m, m < 64 → p m = false) → r = ident) ∧
  (∀ m, m < 64 → p m = true → (∀ n, n < 64 → p n = true → n = m) → r = x m) ∧
  ((∃ m, m < 64 ∧ p m = true ∧ ¬ nan m) → (∃ m, m < 64 ∧ p m = true ∧ ¬ nan m ∧ r = x m) ∧ ∀ m, m < 64 → p m = true → ¬ nan m → ¬ before (x m) r) ∧
  ((∀ m, m < 64 → p m = true → nan m) → (∃ m n, m < n ∧ n < 64 ∧ p m = true ∧ p n = true) → r = 0x7FC00000)

/-- R102, R103, R167: the combination r of the words x of the lanes that satisfy p, and the identity when there is none. -/
def Reduced (o : RedOp) (p : Nat → Bool) (x : Nat → W32) (r : W32) : Prop :=
  match o with
  | .addInt => r.toNat = (((List.range 64).filter p).map fun m => (x m).toNat).sum % 2 ^ 32
  | .addF32 => r = (addTree (fun m => if p m then some (x m) else none) 6 0).getD 0
  | .minS => (∀ m, m < 64 → p m = true → r.toInt ≤ (x m).toInt) ∧
      ((∃ m, m < 64 ∧ p m = true ∧ r = x m) ∨ ((∀ m, m < 64 → p m = false) ∧ r = 0x7FFFFFFF))
  | .maxS => (∀ m, m < 64 → p m = true → (x m).toInt ≤ r.toInt) ∧
      ((∃ m, m < 64 ∧ p m = true ∧ r = x m) ∨ ((∀ m, m < 64 → p m = false) ∧ r = 0x80000000))
  | .minF32 => f32Extreme f32Below 0x7F800000 p x r
  | .maxF32 => f32Extreme (fun a b => f32Below b a) 0xFF800000 p x r
  | .and => ∀ i, i < 32 → (r.getLsbD i = true ↔ ∀ m, m < 64 → p m = true → (x m).getLsbD i = true)
  | .or => ∀ i, i < 32 → (r.getLsbD i = true ↔ ∃ m, m < 64 ∧ p m = true ∧ (x m).getLsbD i = true)

/-! ### Numbers -/

/-- An f32 code is a finite number (R85). -/
def f32Fin (x : W32) : Prop := x.toNat / 2 ^ 23 % 256 ≠ 255
/-- The number that a finite f32 code stands for (R85). -/
def f32Q (x : W32) : ℚ :=
  let e : Nat := x.toNat / 2 ^ 23 % 256
  let m : Nat := x.toNat % 2 ^ 23
  (if x.getLsbD 31 then -1 else 1) * (if e = 0 then (m : ℚ) / 2 ^ 149 else (2 ^ 23 + (m : ℚ)) * 2 ^ e / 2 ^ 150)
/-- An f64 code is a finite number (R85). -/
def f64Fin (x : W64) : Prop := x.toNat / 2 ^ 52 % 2048 ≠ 2047
/-- The number that a finite f64 code stands for (R85). -/
def f64Q (x : W64) : ℚ :=
  let e : Nat := x.toNat / 2 ^ 52 % 2048
  let m : Nat := x.toNat % 2 ^ 52
  (if x.getLsbD 63 then -1 else 1) * (if e = 0 then (m : ℚ) / 2 ^ 1074 else (2 ^ 52 + (m : ℚ)) * 2 ^ e / 2 ^ 1075)
/-- The number that a finite value is. -/
def finQ : FV → Option ℚ
  | .fin n m e => some ((if n then -1 else 1) * (m : ℚ) * (2 : ℚ) ^ e)
  | _ => none

/-- The f32 code r is the number q ≠ 0 rounded by a mode (R86, R89): to nearest with ties to the even code, where a number that lies half a step beyond the
largest one overflows; toward zero; down; up. It keeps the sign of q. -/
def Rounded (mode : Rnd) (q : ℚ) (r : W32) : Prop :=
  r.getLsbD 31 = decide (q < 0) ∧ match mode with
  | .rn => if (2 : ℚ) ^ 128 - 2 ^ 103 ≤ |q| then r = (if q < 0 then 0xFF800000 else 0x7F800000)
    else f32Fin r ∧ ∀ y, f32Fin y → |f32Q r - q| ≤ |f32Q y - q| ∧ (|f32Q r - q| = |f32Q y - q| → f32Q y ≠ f32Q r → r.getLsbD 0 = false)
  | .rz => f32Fin r ∧ |f32Q r| ≤ |q| ∧ ∀ y, f32Fin y → |f32Q y| ≤ |q| → |f32Q y| ≤ |f32Q r|
  | .rm => (r = 0xFF800000 ∧ ∀ y, f32Fin y → q < f32Q y) ∨ (f32Fin r ∧ f32Q r ≤ q ∧ ∀ y, f32Fin y → f32Q y ≤ q → f32Q y ≤ f32Q r)
  | .rp => (r = 0x7F800000 ∧ ∀ y, f32Fin y → f32Q y < q) ∨ (f32Fin r ∧ q ≤ f32Q r ∧ ∀ y, f32Fin y → q ≤ f32Q y → f32Q r ≤ f32Q y)

/-! ### Control -/

/-- The target of a branch: the instruction's address plus 2 × off (R110). -/
def target {n : Nat} (c : Ctx) (off : BitVec n) : W64 := c.pc + BitVec.ofInt 64 (2 * off.toInt)

/-- The pool of the group's partition on its core can give `n` rows, and no frame wait is in the line before it (R184). -/
def RowsFree (s : State) (c : Ctx) (n : Nat) : Prop :=
  (s.core (coreOf c.key)).line = [] ∧ s.partOf (s.gridOf c.g) < 16 ∧ n ≤ s.freeRows (coreOf c.key) (s.partOf (s.gridOf c.g))

/-- The group's registers beside its frames are `r`, but for the slots, which are invalid (R173). -/
def RegsAre (g' : Group) (r : Regs) : Prop := g'.regs = { r with valid := 0, count := 0 }

/-- A frame has been pushed (R178, R179, R181, R196): k argument rows of the caller, fresh rows beyond them and fresh scalars; its lanes go on at `target`. -/
structure Pushed (g g' : Group) (nv nm k : Nat) (lanes : Mask) (ret target : W64) (handler : Bool) : Prop where
  frames : ∃ f, g'.frames = f :: g.frames ∧ f.nv = nv ∧ f.nm = nm ∧ f.lanes = lanes ∧ f.ret = ret ∧ f.k = k ∧ f.handler = handler ∧ f.spilled = false
  args : ∀ r, g'.row r = if r < k then g.row (g.top.nv - k + r) else {}
  mrows : ∀ r, g'.mrow r = {}
  scalars : ∀ r, r < 16 → g'.sreg r = {}
  pcs : ∀ l, l < 64 → pcOf g'.lanes.pc l = if has lanes l then target else pcOf g.lanes.pc l
  waits : g'.lanes.waits = g.lanes.waits.filter fun w => !(w.1 == .frame)
  rest : g' = { g with lanes := { g.lanes with pc := g'.lanes.pc, waits := g'.lanes.waits }, frames := g'.frames, regs := g'.regs, study := g'.study,
                       replay := none, age := g'.age }

/-- The frames of a group are as they were, but that the top one may have been reserved on a study core (R341). -/
def FramesStay (fs : List Frame) (g' : Group) : Prop := g'.frames.tail = fs.tail ∧ g'.top = { fs.headD {} with away := g'.top.away }

/-- The group has parked (R191, R400): why, the fault, the lanes, the address and the length of the instruction; nothing else of it has changed but the
program counters, and the slots are invalid. -/
def Parks (c : Ctx) (g' : Group) (why : ParkWhy) (f : Flt) (mask : Mask) (len : Nat) (next : Bool) : Prop :=
  ∃ p, g'.park = some p ∧ p.why = why ∧ p.flt = f ∧ p.mask = mask ∧ p.pc = c.pc ∧ p.len = len ∧ p.sent = false ∧ p.depth = c.g.fdepth ∧
    RegsAre g' c.g.regs ∧ FramesStay c.g.frames g' ∧
    (∀ l, l < 64 → pcOf g'.lanes.pc l = if has c.mask l && next then c.pc + 4 else pcOf c.g.lanes.pc l) ∧
    g' = { c.g with lanes := { c.g.lanes with pc := g'.lanes.pc }, frames := g'.frames, regs := g'.regs, park := some p, study := g'.study, replay := none, age := g'.age }

/-- Registers when the handler of an exception has been entered (R195, R196, R399): the entry on the trap stack saves the return points, the mask, the
mode, the trap registers and the depth; the mode is privileged. -/
def Entered (c : Ctx) (g' : Group) (mask : Mask) (ret : W64) (code : BitVec 16) (val : W64) (flt : Option (Flt × W64 × Nat)) : Prop :=
  ∃ e, RegsAre g' { c.g.regs with traps := e :: c.g.regs.traps, mode := true, trapcode := code, trapval := val } ∧
    e.mask = mask ∧ e.mode = c.g.regs.mode ∧ e.code = c.g.regs.trapcode ∧ e.val = c.g.regs.trapval ∧ e.depth = c.g.frames.length ∧ e.flt = flt ∧
    e.wrote = false ∧ ∀ l, l < 64 → has mask l → pcOf e.pcs l = ret

/-- What `ret` leaves when it completes the top frame `f` over the caller's frame `u` (R182): the argument rows hold the callee's first j rows, those
beyond are cleared in the frame's lanes that run, and the lanes resume at the return address. -/
structure Returned (c : Ctx) (g' : Group) (f u : Frame) (j : Nat) : Prop where
  lower : g'.frames.tail = c.g.frames.tail.tail
  top : g'.top = { u with v := g'.top.v, kept := g'.top.kept, away := g'.top.away }
  result : ∀ i l, i < f.k → l < 64 → lane (g'.row (u.nv - f.k + i)).w l =
    if j ≤ i ∧ has (f.lanes &&& c.g.lanes.present &&& ~~~ c.g.lanes.fin) l then 0 else lane (c.g.row i).w l
  others : ∀ r, r < u.nv - f.k → g'.row r = get {} u.v r
  pcs : ∀ l, l < 64 → pcOf g'.lanes.pc l = if has f.lanes l && !has c.g.lanes.fin l then f.ret else pcOf c.g.lanes.pc l
  freed : ∀ w ∈ g'.lanes.waits, Wait.frameEnd w.1 = true → w.2 &&& f.lanes = 0
  waits : ∀ w : Wait × Mask, Wait.frameEnd w.1 = false → w.2 ≠ 0 → (w ∈ g'.lanes.waits ↔ w ∈ c.g.lanes.waits)

/-- Lanes `m` of the issuing group leave the hatches of its team and the work queues (R183); what others wait for there stays. -/
structure LinesLeft (u t : State) (c : Ctx) (m : Mask) : Prop where
  rest : t = { u with teams := t.teams, vfs := t.vfs }
  teams : ∀ j, j ≠ c.g.team → t.team j = u.team j
  team : t.team c.g.team = { u.team c.g.team with pushers := (t.team c.g.team).pushers, poppers := (t.team c.g.team).poppers }
  pushers : ∀ x ∈ (t.team c.g.team).pushers, x.2.1 = c.key → x.2.2.2.1 &&& m = 0
  poppers : ∀ x ∈ (t.team c.g.team).poppers, x.2.1 = c.key → x.2.2.2 &&& m = 0
  otherPushers : ∀ x, x.2.1 ≠ c.key → x.2.2.2.1 ≠ 0 → (x ∈ (t.team c.g.team).pushers ↔ x ∈ (u.team c.g.team).pushers)
  otherPoppers : ∀ x, x.2.1 ≠ c.key → x.2.2.2 ≠ 0 → (x ∈ (t.team c.g.team).poppers ↔ x ∈ (u.team c.g.team).poppers)
  vfs : ∀ v, t.vf v = { u.vf v with wqs := (t.vf v).wqs }
  queues : ∀ v w q, u.wq v w = some q → ∃ l, t.wq v w = some { q with line := l } ∧ (∀ r ∈ l, r.grp = c.key → r.mask &&& m = 0) ∧
    ∀ r, r.grp ≠ c.key → r.mask ≠ 0 → (r ∈ l ↔ r ∈ q.line)

/-- Every lane of the top frame that has not finished has ended it with this issue (R42). -/
def EndsFrame (c : Ctx) (at_ : Mask) : Prop := c.g.running &&& ~~~ (c.mask ||| at_) = 0

/-- Nothing beside the group changes but what the read of entry `e` of its trap vector does: its messages, and its report when the host answers it with an
error completion (R23, R361, R438). -/
def BesideVector (s t : State) (c : Ctx) (e : Nat) : Prop := Beside (s.vectorAsk c.key e) t c.key

/-- Instruction `i` takes the precise fault `f` (R399, R400): the handler of its cause is entered, to return to the instruction, or the group parks; while the
vector's entry lies across a link that carries nothing, it waits (R462). -/
def Faults (s : State) (c : Ctx) (i : Instr) (f : Flt) (len : Nat) : Prop :=
  let vf := (s.gridOf c.g).vf
  let e := f.kind / 256
  (∀ v : W64 × Nat × Nat, s.vectorHeld vf e = false → s.vector vf e = some v → c.g.regs.traps.length < 4 → c.g.fdepth < 31 →
    RowsFree s c (v.2.1 + 16 * v.2.2) →
    ∃ t, exec i s = .next t ∧ BesideVector s t c e ∧ Entered c (t.grp c.key) c.mask c.pc (BitVec.ofNat 16 f.kind) f.addr (some (f, c.pc, len)) ∧
      Pushed c.g (t.grp c.key) v.2.1 (16 * v.2.2) 0 c.mask c.pc v.1 true) ∧
  (s.vectorHeld vf e = false → s.vector vf e = none →
    ∃ t, exec i s = .next t ∧ BesideVector s t c e ∧ Parks c (t.grp c.key) .fault f c.mask len false) ∧
  (s.vectorHeld vf e = true → exec i s = .next s)

/-- The code of a condition of `brs` (R175). -/
def brsCode : BrCc → Nat
  | .eqz => 0 | .nez => 1 | .ltz => 2 | .lez => 3 | .gtz => 4 | .gez => 5
/-- The comparison of `brs` with 0 (R175). -/
def brsHolds (cc : BrCc) (x : Int) : Prop :=
  match cc with
  | .eqz => x = 0 | .nez => x ≠ 0 | .ltz => x < 0 | .lez => x ≤ 0 | .gtz => 0 < x | .gez => 0 ≤ x

/-! ### Memory -/

/-- The interval of the group's team is published when its grid is guarded (R51, R210). -/
def Publishes (s t : State) (c : Ctx) : Prop := (s.grid (s.team c.g.team).grid).guarded = true → (t.team c.g.team).guard.published = true

/-- Some access leaves the group's team: host memory, the parlour, another team's scratchpad (R51). -/
def outside (c : Ctx) (accs : List Acc) : Bool :=
  accs.any fun a => match a.tgt with
    | .host _ _ => true
    | .par _ _ _ => true
    | .scr q _ => q != c.g.team
    | _ => false

/-- Instruction `i` goes ahead, its accesses pass their checks (R205) and it completes: its group has what `w` wants, and nothing else changes, but that
misses start walks (R81), and that the interval is published when `pub` says so. -/
def Enters (i : Instr) (g : Guard) (o : Ctx → Op) (reqs : State → Ctx → List Req) (pre : State → Ctx → List Acc → Prop) (w : State → Ctx → List Acc → Want)
    (pub : Ctx → List Acc → Bool) : Prop :=
  i.wf = true → ∀ s c accs, Ready s c → Goes s c (active c g) (o c) → Reaches s c (reqs s c) accs → pre s c accs →
    ∃ t, exec i s = .next t ∧ Issued (s.misses c accs) t c (w s c accs) ∧ (pub c accs = true → Publishes s t c)

/-- The wait of a load or atomic that stands at place `seq` of the program order and makes n memory requests: its lanes wait for them when its core does not
take them now (R39, R209). -/
def askWait (s : State) (c : Ctx) (act : Mask) (seq n : Nat) : List (Wait × Mask) :=
  if act = 0 ∨ AskRoom s c n then [] else [(.req seq, act)]

/-- The group's accesses in flight when one load more is out (R39, R211). -/
def withLoad (c : Ctx) (act : Mask) (dst : LdDst) (accs : List Acc) (acq : Option Scope) (m : Mio) : Mio :=
  if act = 0 then m
  else { m with seq := m.seq + 1
                loads := m.loads ++ [{ seq := m.seq, depth := c.g.fdepth, dst := dst, accs := accs, acq := acq, pc := c.pc, mask := c.mask }] }
/-- A marker in the store FIFO (R219). -/
def marker (sc : Scope) (act : RelAct) : FOp × W64 × Mask × List (Nat × Nat) := (.rel sc act, 0, 0, [])
/-- The group's accesses in flight when the store FIFO holds entries more (R66): operation, program counter, issue mask, and the rows that the data come
from, each with the frame that owns it (R186). -/
def withFifo (c : Ctx) (es : List (FOp × W64 × Mask × List (Nat × Nat))) (m : Mio) : Mio :=
  es.foldl (fun m e => { m with seq := m.seq + 1, fifo := m.fifo ++ [⟨m.seq, c.g.fdepth, e.1, e.2.1, e.2.2.1, e.2.2.2⟩] }) m

/-- A load of n bytes per lane to rows from d on. -/
def LoadEnters (i : Instr) (g : Guard) (srcs : List (VSrc × Nat)) (ss : List Nat) (nw signed : Bool) (d : VReg) (n : Nat) (form : Form)
    (acq : Option Scope) (addr : Ctx → Nat → W64) : Prop :=
  Enters i g (fun _ => { srcs := srcs, ssrcs := ss, dsts := [(d.val, (n + 3) / 4)], nw := nw }) (fun _ c => laneReqs (active c g) n 0 form (addr c))
    (fun _ _ _ => True)
    (fun s c accs => { wait := true, mio := withLoad c (active c g) (if nw then .none else .rows signed d.val ((n + 3) / 4)) accs acq
                       waits := askWait s c (active c g) c.g.mio.seq accs.length }) fun _ _ => false

/-- A store of the first n bytes of rows from v on. -/
def StoreEnters (i : Instr) (g : Guard) (srcs : List (VSrc × Nat)) (ss : List Nat) (v : VSrc) (n : Nat) (form : Form) (rel : Option Scope)
    (addr : Ctx → Nat → W64) : Prop :=
  Enters i g (fun _ => { srcs := srcs ++ [(v, (n + 3) / 4)], ssrcs := ss }) (fun _ c => laneReqs (active c g) n 1 form (addr c))
    (fun s c accs => FifoRoom c ∧ (form = .gen → (s.grid c.g.grid).bdHits (accs.map fun a => (a, rowBytes c.g v n a.lane)) = []))
    (fun _ c accs =>
      let e : FOp × W64 × Mask × List (Nat × Nat) :=
        (.store (accs.map fun a => (a, rowBytes c.g v n a.lane)), c.pc, c.mask, c.g.owners (v, (n + 3) / 4))
      { mio := if active c g = 0 then id else withFifo c (match rel with
          | none => [e]
          | some sc => [marker sc .none, e, marker sc .none]) })
    fun c accs => outside c accs || rel.any Scope.wide

/-- Instruction `i` goes ahead and its accesses fail their checks with the fault `f`: it takes it, of the address check that R412 orders first (R205, R411);
a failed translation parks the group, whatever handlers there are (R445). -/
def FailsFault (i : Instr) (g : Guard) (o : Ctx → Op) (reqs : State → Ctx → List Req) (pre : State → Ctx → Prop) : Prop :=
  i.wf = true → ∀ s c f, Ready s c → Goes s c (active c g) (o c) → pre s c → s.checkAll c.g (coreOf c.key) (reqs s c) = .error f →
    (f.kind ≠ 0x0701 → Faults s c i f 4) ∧
    (f.kind = 0x0701 → ∃ t, exec i s = .next t ∧ Beside s t c.key ∧ Parks c (t.grp c.key) .fault f c.mask 4 false)
/-- Nothing more is asked of the state. -/
def Always (_ : State) (_ : Ctx) : Prop := True

/-- A load as in `LoadEnters` faults. -/
def LoadFaults (i : Instr) (g : Guard) (srcs : List (VSrc × Nat)) (ss : List Nat) (nw : Bool) (d : VReg) (n : Nat) (form : Form) (addr : Ctx → Nat → W64) : Prop :=
  FailsFault i g (fun _ => { srcs := srcs, ssrcs := ss, dsts := [(d.val, (n + 3) / 4)], nw := nw }) (fun _ c => laneReqs (active c g) n 0 form (addr c))
    Always

/-- A store as in `StoreEnters` faults. -/
def StoreFaults (i : Instr) (g : Guard) (srcs : List (VSrc × Nat)) (ss : List Nat) (v : VSrc) (n : Nat) (form : Form) (addr : Ctx → Nat → W64) : Prop :=
  FailsFault i g (fun _ => { srcs := srcs ++ [(v, (n + 3) / 4)], ssrcs := ss }) (fun _ c => laneReqs (active c g) n 1 form (addr c)) fun _ c => FifoRoom c

/-- An atomic as in `AtomEnters` faults. -/
def AtomFaults (i : Instr) (a v : VSrc) (op : AtomOp) (wide : Bool) (dst : Option VReg) : Prop :=
  let n := if wide then 2 else 1
  FailsFault i none (fun _ => { srcs := [(a, 2), (v, if op = .cas then 2 * n else n)], dsts := dst.toList.map fun d => (d.val, n) })
    (fun _ c => laneReqs (active c none) (4 * n) 2 (.atom op) (pair c a)) fun _ c => FifoRoom c

/-- The address S(s) + V(va) of lane L (R131). -/
def sumAddr (s : SReg) (va : VSrc) (c : Ctx) (l : Nat) : W64 := c.g.s s + (word c va l).signExtend 64
/-- The address S(s) + 4 × imm9 + 4 × L (R213). -/
def stepAddr (s : SReg) (imm : BitVec 9) (c : Ctx) (l : Nat) : W64 := c.g.s s + BitVec.ofNat 64 (4 * imm.toNat + 4 * l)

/-- The loads of format M: bytes, signed or not (R211). -/
def mLoads : List ((ML → Instr) × Nat × Bool) :=
  [(.ldS8, 1, true), (.ldZ8, 1, false), (.ldS16, 2, true), (.ldZ16, 2, false), (.ld32, 4, false), (.ld64, 8, false), (.ld128, 16, false)]
/-- The stores of format M. -/
def mStores : List ((MS → Instr) × Nat) := [(.st8, 1), (.st16, 2), (.st32, 4), (.st64, 8), (.st128, 16)]

/-- The 32-bit `atom` instructions. -/
def atom32 : List ((XAtom → Instr) × AtomOp × Bool × Bool) :=
  [(.atomAdd32, .add, false, false), (.atomMinS32, .minS, false, false), (.atomMinZ32, .minZ, false, false), (.atomMaxS32, .maxS, false, false),
   (.atomMaxZ32, .maxZ, false, false), (.atomAnd32, .and, false, false), (.atomOr32, .or, false, false), (.atomXor32, .xor, false, false),
   (.atomXchg32, .xchg, false, false), (.atomCas32, .cas, false, false), (.atomFadd32, .fadd, false, false)]
/-- The 64-bit `atom` instructions. -/
def atom64 : List ((XAtom → Instr) × AtomOp × Bool × Bool) :=
  [(.atomAdd64, .add, true, false), (.atomMinS64, .minS, true, false), (.atomMinZ64, .minZ, true, false), (.atomMaxS64, .maxS, true, false),
   (.atomMaxZ64, .maxZ, true, false), (.atomAnd64, .and, true, false), (.atomOr64, .or, true, false), (.atomXor64, .xor, true, false),
   (.atomXchg64, .xchg, true, false), (.atomCas64, .cas, true, false), (.atomFadd64, .fadd, true, false)]
/-- The 32-bit `.ar` `atom` instructions. -/
def atomAr32 : List ((XAtom → Instr) × AtomOp × Bool × Bool) :=
  [(.atomAddAr32, .add, false, true), (.atomMinSAr32, .minS, false, true), (.atomMinZAr32, .minZ, false, true), (.atomMaxSAr32, .maxS, false, true),
   (.atomMaxZAr32, .maxZ, false, true), (.atomAndAr32, .and, false, true), (.atomOrAr32, .or, false, true), (.atomXorAr32, .xor, false, true),
   (.atomXchgAr32, .xchg, false, true), (.atomCasAr32, .cas, false, true), (.atomFaddAr32, .fadd, false, true)]
/-- The 64-bit `.ar` `atom` instructions. -/
def atomAr64 : List ((XAtom → Instr) × AtomOp × Bool × Bool) :=
  [(.atomAddAr64, .add, true, true), (.atomMinSAr64, .minS, true, true), (.atomMinZAr64, .minZ, true, true), (.atomMaxSAr64, .maxS, true, true),
   (.atomMaxZAr64, .maxZ, true, true), (.atomAndAr64, .and, true, true), (.atomOrAr64, .or, true, true), (.atomXorAr64, .xor, true, true),
   (.atomXchgAr64, .xchg, true, true), (.atomCasAr64, .cas, true, true), (.atomFaddAr64, .fadd, true, true)]
/-- The atomics: operation, 64 bits, `.ar` (R221). -/
def atomInstrs : List ((XAtom → Instr) × AtomOp × Bool × Bool) := atom32 ++ atom64 ++ atomAr32 ++ atomAr64
/-- The 32-bit `red` instructions. -/
def red32 : List ((XRel → Instr) × AtomOp × Bool) :=
  [(.redAdd32, .add, false), (.redMinS32, .minS, false), (.redMinZ32, .minZ, false), (.redMaxS32, .maxS, false), (.redMaxZ32, .maxZ, false),
   (.redAnd32, .and, false), (.redOr32, .or, false), (.redXor32, .xor, false), (.redXchg32, .xchg, false), (.redFadd32, .fadd, false)]
/-- The 64-bit `red` instructions. -/
def red64 : List ((XRel → Instr) × AtomOp × Bool) :=
  [(.redAdd64, .add, true), (.redMinS64, .minS, true), (.redMinZ64, .minZ, true), (.redMaxS64, .maxS, true), (.redMaxZ64, .maxZ, true),
   (.redAnd64, .and, true), (.redOr64, .or, true), (.redXor64, .xor, true), (.redXchg64, .xchg, true), (.redFadd64, .fadd, true)]
/-- The `red` instructions. -/
def redInstrs : List ((XRel → Instr) × AtomOp × Bool) := red32 ++ red64

/-- An operand of an atomic in lane L: a row, or a pair, `e` rows after the source. -/
def operand (c : Ctx) (v : VSrc) (wide : Bool) (e l : Nat) : W64 :=
  if wide then join (lane (c.g.srcAt v e) l) (lane (c.g.srcAt v (e + 1)) l) else (lane (c.g.srcAt v e) l).setWidth 64

/-- An atomic at the addresses in pair a with its operands from v on enters the store FIFO, with a release before it when it is `.ar` (R222, R223). -/
def AtomEnters (i : Instr) (a v : VSrc) (op : AtomOp) (wide : Bool) (dst : Option VReg) (sc : Scope) (ar : Bool) : Prop :=
  let n := if wide then 2 else 1
  Enters i none (fun _ => { srcs := [(a, 2), (v, if op = .cas then 2 * n else n)], dsts := dst.toList.map fun d => (d.val, n) })
    (fun _ c => laneReqs (active c none) (4 * n) 2 (.atom op) (pair c a)) (fun _ c _ => FifoRoom c)
    (fun s c accs =>
      let items := accs.map fun x => (x, operand c v wide 0 x.lane, if op = .cas then operand c v wide n x.lane else 0)
      { wait := true, waits := askWait s c c.mask (c.g.mio.seq + if ar then 1 else 0) accs.length, mio := withFifo c ((if ar then [marker sc .none] else []) ++
          [(.atom op wide (dst.map Fin.val) items (if ar then some sc else none), c.pc, c.mask, c.g.owners (v, if op = .cas then 2 * n else n))]) })
    fun c accs => outside c accs || (ar && Scope.wide sc)

/-- Instruction `i` goes ahead: its group has what `w` wants in a state `u` that differs from `s` in nothing else, and `E` then says what else happens. -/
def Then (i : Instr) (g : Guard) (o : State → Ctx → Op) (pre : State → Ctx → Prop) (w : State → Ctx → Want) (E : State → Ctx → State → State → Prop) : Prop :=
  i.wf = true → ∀ s c, Ready s c → Goes s c (active c g) (o s c) → pre s c →
    ∃ t u, exec i s = .next t ∧ Issued s u c (w s c) ∧ E s c u t

/-- A table of lines holds no line twice, and each line holds some byte and none twice. -/
def LinesOnce (m : FMap Line) : Prop := (m.map Prod.fst).Nodup ∧ ∀ e ∈ m, e.2.bytes ≠ [] ∧ (e.2.bytes.map Prod.fst).Nodup

/-- The clean bytes of a line are gone, its dirty bytes stay (R69). -/
def OnlyDirty (l l' : Line) : Prop := ∀ o, l'.valid o = l.dirty o ∧ (l.dirty o = true → get (0, false) l'.bytes o = get (0, false) l.bytes o)

/-- The value of a special register, in lane L for a lane register (R199, R200). -/
def SpecialIs (s : State) (c : Ctx) (r : SpReg) (l v : Nat) : Prop :=
  let g := s.gridOf c.g
  let t := s.team c.g.team
  let k := coreOf c.key
  match r with
  | .lane => v = l
  | .tid => v = (c.g.lanes.tid.toList.getD l 0).toNat
  | .group => v = c.g.num
  | .ngroup => v = g.roleGroups 0 + g.roleGroups 1 + g.roleGroups 2 + g.roleGroups 3
  | .role => v = c.g.role
  | .teamX => ∃ y z, y < g.dim 1 ∧ v < g.dim 0 ∧ t.lin = v + g.dim 0 * (y + g.dim 1 * z)
  | .teamY => ∃ x z, x < g.dim 0 ∧ v < g.dim 1 ∧ t.lin = x + g.dim 0 * (v + g.dim 1 * z)
  | .teamZ => ∃ x y, x < g.dim 0 ∧ y < g.dim 1 ∧ t.lin = x + g.dim 0 * (y + g.dim 1 * v)
  | .nteamX => v = g.dim 0
  | .nteamY => v = g.dim 1
  | .nteamZ => v = g.dim 2
  | .suite => v = t.first % 64 / 4
  | .gang => c.g.team ∈ t.gangTeams → t.gangTeams[v]? = some c.g.team
  | .die => v = (List.range (dieOf t.first)).countP fun d => g.dies / 2 ^ d % 2 == 1 && (s.die d).online
  | .ndie => v = (List.range 4).countP fun d => g.dies / 2 ^ d % 2 == 1 && (s.die d).online
  | .dieclass => v = if dieOf t.first < 2 then 0 else 1
  | .grid => v = g.num.toNat
  | .core => v = k
  | .fdepth => v = c.g.frames.length - 1
  | .unw => v = c.g.regs.unw
  | .srseed => v = (s.core k).seed.toNat
  | .rbk => v = t.rbk.toNat
  | .trapcode => v = if c.g.regs.traps = [] then 0 else c.g.regs.trapcode.toNat
  | .trapval => v = if c.g.regs.traps = [] then 0 else c.g.regs.trapval.toNat
  | .studied => v = 0
  | .part => v = s.partOf g
  | .vf => v = g.vf
  | .gen => v = (s.spaceOf c.g.grid).gen
  | .xqsel => v = c.g.regs.xqsel.toNat

/-- The group's registers beside its frames are what `F` makes of them, and nothing else has changed. -/
def RegsBecome (c : Ctx) (u t : State) (F : Regs → Regs) : Prop := t = u.setGrp c.key { u.grp c.key with regs := F (u.grp c.key).regs }

/-- Group `g` arrives at a barrier at phase n: lanes that issued `bar.arr` go on, the arrival release enters the FIFO (R226, R227), and the acquire of the
lanes that wait at `bar` follows it in the program order (R219; the model's choice, LOG 145). -/
def arrives (l : Level) (n : Nat) (g : Group) : Group :=
  let h : Group := { g with
    lanes := { g.lanes with waits := g.lanes.waits.filter fun w => !(w.1 == .barArr l) }
    mio := { g.mio with
      seq := g.mio.seq + 1
      fifo := g.mio.fifo ++ [⟨g.mio.seq, g.fdepth, .rel (levelScope l) (.arrive l), 0, 0, []⟩]
      bars := put g.mio.bars (levelNum l) { issued := 0, arrived := true, memo := if g.waitMask (· == .barArr l) = 0 then (g.bar l).memo else some n } } }
  if g.waitMask (· == .bar l) = 0 then h else h.acquires (.bar l) (g.waitMask (· == .bar l))

/-- The group's accesses in flight when its issuing lanes wait for `w` and carry an acquire, which has its place in the program order (R219). -/
def withAcq (c : Ctx) (w : Wait) (_ : Mio) : Mio := ((c.g.addWait c.mask w).acquires w c.mask).mio

/-- A barrier instruction at level l, its lanes waiting as `w` says (R225 to R227). -/
def BarIssues (i : Instr) (l : Level) (pre : State → Ctx → Prop) (w : Wait) : Prop :=
  Then i none (fun _ _ => { wait := true }) (fun s c => pre s c ∧ (l = .die → (s.gridOf c.g).attr 3 = true) ∧ (l = .grid → (s.gridOf c.g).attr 4 = true))
    (fun _ c => { wait := true, waits := [(w, c.mask)]
                  mio := fun m => { m with bars := put m.bars (levelNum l) { c.g.bar l with issued := (c.g.bar l).issued ||| c.mask }
                                           acqs := renewed w c.mask m.acqs } })
    fun s c u t => (l ≠ .team → Publishes s t c) ∧
      ((c.g.running &&& ~~~ ((c.g.bar l).issued ||| c.mask) ≠ 0 ∨ (c.g.bar l).arrived = true ∨ s.mxOf c.key ≠ []) → t = u) ∧
      (c.g.running &&& ~~~ ((c.g.bar l).issued ||| c.mask) = 0 → (c.g.bar l).arrived = false → s.mxOf c.key = [] →
        t = u.setGrp c.key (arrives l (s.barUnit c.g.grid l (s.barInst c.g.team l)).phase (u.grp c.key)))

/-! ### Accesses that complete -/

/-- Group `k` is placed, runs at home (R335) with no access that a study core is to stop at (R348), and some lane of it has not finished, so that it does not retire (R37). -/
structure Stays (s : State) (k : Nat) : Prop where
  live : (s.grp k).live = true
  home : (s.grp k).study.phase = 0
  halt : (s.grp k).study.halt = []
  lanes : (s.grp k).lanes.present &&& ~~~ (s.grp k).lanes.fin ≠ 0

/-- Every group but those of a list is as it was. -/
def OthersStay (s t : State) (ks : List Nat) : Prop := ∀ j, j ∉ ks → t.grp j = s.grp j

/-- A byte of a line as core `c` sees it (R66, R67, R72): of the L1 of its path when that holds it, and otherwise as the die's L2 gives it. -/
def cachedByte (s : State) (c : Nat) (fused : Bool) (key o : Nat) (ms : Bool) : Byte :=
  match get? (get {} (s.core (l1Core fused c key)).l1 key).bytes o with
  | some b => b.1
  | none => (s.l2Byte (dieOf c) key o ms).1

/-- Byte i of a target as core `c` sees it (R66, R74). -/
def seenByte (s : State) (c : Nat) (fused : Bool) (t : Tgt) (i : Nat) : Byte :=
  match t with
  | .dev pa ms => cachedByte s c fused (lineKey false pa) (pa % 128 + i) ms
  | .host h true => cachedByte s c fused (lineKey true h) (h % 128 + i) false
  | .host h false => s.hostRead (h + i)
  | .scr q off => (s.team q).scr.read (off + i)
  | .par g d off => (s.parlour g d).read (off + i)
  | .zero => 0

/-- A byte of a target at its home, as an atomic reads it (R75). -/
def homeByteOf (s : State) (t : Tgt) (i : Nat) : Byte :=
  match t with
  | .dev pa _ => s.mem.dev.read (pa + i)
  | .host h _ => s.hostRead (h + i)
  | .scr q off => (s.team q).scr.read (off + i)
  | .par g d off => (s.parlour g d).read (off + i)
  | .zero => 0

/-- An access to lines lies inside one line, and a parlour's die is a die. -/
def Acc.inLine (a : Acc) : Prop :=
  match a.tgt with
  | .dev pa _ => pa % 128 + a.n ≤ 128
  | .host h true => h % 128 + a.n ≤ 128
  | .par _ d _ => d < 4
  | _ => True

/-- The line of a target and whether its page is memory-side, for targets that an L1 holds. -/
def lineOf : Tgt → Option (Nat × Bool)
  | .dev pa ms => some (lineKey false pa, ms)
  | .host h true => some (lineKey true h, false)
  | _ => none

/-- Nothing is poisoned anywhere. -/
structure NoPoison (s : State) : Prop where
  dev : s.mem.devPx = []
  par : s.mem.parPx = []
  scr : ∀ j, (s.team j).scrPx = []
  l1 : ∀ c k, (get {} (s.core c).l1 k).px = []
  visitors : ∀ d k, (get {} (s.die d).visitors k).px = []

/-- The bytes of a load's destination in one lane. -/
def loadWidth : LdDst → Nat
  | .rows _ _ r => 4 * r
  | .mrows _ => 64
  | .scalar _ => 8
  | .none => 0

/-- Lines hold bytes of their own 128 offsets only. -/
def LinesIn (s : State) : Prop :=
  (∀ c k l, get? (s.core c).l1 k = some l → ∀ e ∈ l.bytes, e.1 < 128) ∧ ∀ d k l, get? (s.die d).visitors k = some l → ∀ e ∈ l.bytes, e.1 < 128

/-- Byte `b` of line k at offset o is held somewhere: at home, or in a line of an L1 or of a die's visitors, dirty there when `d` says so. -/
def HeldSomewhere (s : State) (d : Bool) (k o : Nat) (b : Byte) : Prop :=
  (d = false ∧ s.homeByte k o = b) ∨ (∃ c l x, get? (s.core c).l1 k = some l ∧ (o, (b, x)) ∈ l.bytes ∧ (d = true → x = true)) ∨
    ∃ e l x, get? (s.die e).visitors k = some l ∧ (o, (b, x)) ∈ l.bytes ∧ (d = true → x = true)

/-- What accesses may change in the caches: lines come in and are evicted (R21, R67, R68, R72), messages are counted and cross the link (R23, R361), and
memory takes no byte but those that a line held dirty. -/
structure Caches (s t : State) : Prop where
  rest : t = { s with cores := t.cores, dies := t.dies, mem := t.mem, fresh := t.fresh, mod_ := t.mod_ }
  cores : ∀ j, t.core j = { s.core j with l1 := (t.core j).l1, dirty := (t.core j).dirty }
  dies : ∀ j, t.die j = { s.die j with visitors := (t.die j).visitors, count := (t.die j).count }
  link : t.mod_ = { s.mod_ with link := t.mod_.link }
  mem : t.mem = { s.mem with dev := t.mem.dev, devPx := t.mem.devPx, host := t.mem.host, late := t.mem.late }
  home : LinesIn s → ∀ k o, o < 128 → t.homeByte k o = s.homeByte k o ∨ HeldSomewhere s true k o (t.homeByte k o)

/-- What a load may change beside its group: the caches, the reads that are recorded (R317), a free value taken for a host access (R438). -/
def LoadBeside (s t : State) : Prop :=
  ∃ u, Caches s u ∧ t = { u with groups := t.groups, teams := t.teams, fresh := t.fresh } ∧ ∀ j, t.team j = { s.team j with recd := (t.team j).recd }

/-- The offset of byte i of a target in its line. -/
def lineOff (t : Tgt) (i : Nat) : Nat :=
  match t with
  | .dev pa _ => pa % 128 + i
  | .host h _ => h % 128 + i
  | _ => i

/-- Byte `v` of line k at offset o waits, dirty, in the L2 of some die to go home (R21). -/
def Waiting (s : State) (k o : Nat) (v : Byte) : Prop := ∃ e l, get? (s.die e).visitors k = some l ∧ (o, (v, true)) ∈ l.bytes

/-- The byte that accesses of one line see at an offset (R67, R72, R290): when the L1 holds all that they read, its byte; otherwise the line is fetched. A
line that holds clean bytes is evicted first (R68; the model's choice: LOG 6), so that its dirty bytes come back from where they went; of another, what it
holds stays (R67). What the L1 does not hold comes from the visitor line, or from home, where the evictions that make room (LOG 93) may have brought what
waited for it in some L2. -/
def LineByte (s : State) (c : Nat) (fused : Bool) (as : List Acc) (k o : Nat) (ms : Bool) (v : Byte) : Prop :=
  let l := get {} (s.core (l1Core fused c k)).l1 k
  let vis := get {} (s.die (dieOf c)).visitors k
  let off (a : Acc) (i : Nat) : Nat := lineOff a.tgt i
  if (∀ a ∈ as, ∀ i, i < a.n → l.valid (off a i) = true) ∨ (l.dirty o = true ∧ l.anyClean = false) then v = (get (0, false) l.bytes o).1
  else if l.dirty o = true then (needsVisitor (dieOf c) k l.ms = needsVisitor (dieOf c) k ms → v = (get (0, false) l.bytes o).1 ∨ Waiting s k o v)
  else if needsVisitor (dieOf c) k ms = true ∧ vis.dirty o = true then Waiting s k o v
  else v = s.homeByte k o ∨ Waiting s k o v ∨ (needsVisitor (dieOf c) k ms = true ∧
    (∀ x, x < 128 → vis.valid x = true ∨ (l.anyClean = true ∧ l.dirty x = true)) ∧ v = (get (0, false) vis.bytes o).1)

/-- Every L1 and every die's L2 holds each line once, and each byte of a line once. -/
def CachesOnce (s : State) : Prop := (∀ c, LinesOnce (s.core c).l1) ∧ ∀ d, LinesOnce (s.die d).visitors

/-- Byte i of access `a`, one of the accesses `as` of a load, as the caches give it: of one line, `LineByte`; of several, of which one may evict another, a
byte that some cache or its home holds (R68, R72). -/
def CacheSees (s : State) (c : Nat) (fused : Bool) (as : List Acc) (a : Acc) (i : Nat) (v : Byte) : Prop :=
  match lineOf a.tgt, a.tgt with
  | some (k, ms), _ => LinesIn s → HeldSomewhere s false k (lineOff a.tgt i) v ∧
      (CachesOnce s → (∀ b ∈ as, ∃ m, lineOf b.tgt = some (k, m)) → LineByte s c fused as k (lineOff a.tgt i) ms v)
  | none, .host h _ => (LinesIn s → HeldSomewhere s false (lineKey true (h + i)) ((h + i) % 128) v) ∧
      ((∀ b ∈ as, lineOf b.tgt = none) → v = s.hostRead (h + i))
  | none, t => v = seenByte s c fused t i

/-- Access `a` of a load finds its lane's bytes: forwarded from the group's own older stores (R66), or as the caches give them, with zeros beyond a window
(R217). -/
def LoadFinds (s : State) (c : Nat) (fused : Bool) (fifo : List FEnt) (l : Ld) (w : Nat) (a : Acc) (x : Loaded) : Prop :=
  x.1 = a.lane ∧ x.2.length = a.n + (if (a.n < w ∧ 4 ≤ a.n) ∨ a.n = 0 then w - a.n else 0) ∧
    (∀ i, a.n ≤ i → (x.2.getD i (0, false)).1 = 0) ∧
    ∀ i, i < a.n → match fifoByte fifo l.seq (a.tgt.at_ i) with
      | some b => (x.2.getD i (0, false)).1 = b.1
      | none => CacheSees s c fused l.accs a i (x.2.getD i (0, false)).1

/-- Nothing stale is held on the path of access `a` of core `c`: what its L1s and its die's visitor lines hold clean is what stands below, the line of the
access is known as its page has it, no line goes through the L2 in two ways, and no other die holds the access's line dirty. Evictions then change no byte that the access sees. -/
structure Settled (s : State) (c : Nat) (fused : Bool) (a : Acc) : Prop where
  l1 : ∀ k l o b, get? (s.core (l1Core fused c k)).l1 k = some l → get? l.bytes o = some (b, false) → (s.l2Byte (dieOf c) k o l.ms).1 = b
  visitors : ∀ k l o b, get? (s.die (dieOf c)).visitors k = some l → get? l.bytes o = some (b, false) → s.homeByte k o = b
  once : CachesOnce s
  inside : LinesIn s
  page : ∀ k ms, lineOf a.tgt = some (k, ms) → (∀ l, get? (s.core (l1Core fused c k)).l1 k = some l → l.ms = ms) ∧
    (needsVisitor (dieOf c) k ms = false → get? (s.die (dieOf c)).visitors k = none)
  elsewhere : ∀ k ms, lineOf a.tgt = some (k, ms) → ∀ e l, e ≠ dieOf c → get? (s.die e).visitors k = some l → ∀ o, l.dirty o = false
  uncached : ∀ h, a.tgt = .host h false → ∀ i, i < a.n →
    (∀ j ∈ l1Cores fused c, get? (s.core j).l1 (lineKey true (h + i)) = none) ∧ ∀ d, get? (s.die d).visitors (lineKey true (h + i)) = none

/-- What the accesses of a store FIFO may change beside the bytes stored: lines of L1s and of visitors, the undo log (R49), counts of messages, dirty
planes (R322), poison marks, the reads that an atomic records (R317), free values of evictions, flits on the link (R361). -/
structure StoreBeside (s t : State) : Prop where
  rest : t = { s with groups := t.groups, teams := t.teams, cores := t.cores, dies := t.dies, spaces := t.spaces, mem := t.mem, fresh := t.fresh
                      mod_ := t.mod_ }
  link : t.mod_ = { s.mod_ with link := t.mod_.link }
  teams : ∀ j, t.team j = { s.team j with scr := (t.team j).scr, scrPx := (t.team j).scrPx, guard := (t.team j).guard, recd := (t.team j).recd }
  cores : ∀ j, t.core j = { s.core j with l1 := (t.core j).l1, dirty := (t.core j).dirty }
  dies : ∀ j, t.die j = { s.die j with visitors := (t.die j).visitors, count := (t.die j).count }
  spaces : ∀ j, t.space j = { s.space j with planes := (t.space j).planes }

/-- Byte `b` has come home to byte i of target x from the L2 of some die, where it was dirty: an eviction has brought it (R21, R72). -/
def Brought (s : State) (x : Tgt) (i : Nat) (b : Byte) : Prop :=
  ∃ k o, x.at_ i = (if lineHost k then 1 else 0, 0, lineAddr k + o) ∧ Waiting s k o b
/-- Byte `b` is what stands at the home of byte i of target x, or what an eviction brings there while lines take their places (R72). -/
def AtHome (s : State) (x : Tgt) (i : Nat) (b : Byte) : Prop := b = homeByteOf s x i ∨ Brought s x i b
/-- No die's L2 holds a byte that waits to go home. -/
def NoneWait (s : State) : Prop := ∀ d k l, get? (s.die d).visitors k = some l → l.anyDirty = false

/-- One lane's atomic at the home of its location (R221, R222): the old value, the new one, and every other byte as it was, but for what the evictions
bring home that make room for its line in the home die's L2 (R72). -/
structure AtomDone (s t : State) (op : AtomOp) (wide : Bool) (a : Acc) (y z old : W64) : Prop where
  read : old.toNat = leNat ((List.range a.n).map (homeByteOf s a.tgt))
  written : (List.range a.n).map (homeByteOf t a.tgt) = leBytes a.n (atomNew wide op old y z).toNat
  others : ∀ x i, (∀ j, j < a.n → a.tgt.at_ j ≠ x.at_ i) → AtHome s x i (homeByteOf t x i)
  beside : StoreBeside s t
  groups : t.groups = s.groups
  lines : (∀ j, t.core j = { s.core j with dirty := (t.core j).dirty }) ∧ ∀ d k, get? (t.die d).visitors k = get? (s.die d).visitors k ∨ get? (t.die d).visitors k = none

/-- The lanes of an atomic one after another in ascending order (R222): the states between, and the old values. -/
def AtomRun (op : AtomOp) (wide : Bool) : State → List (Acc × W64 × W64) → State → List (Nat × W64) → Prop
  | s, [], t, olds => t = s ∧ olds = []
  | s, it :: rest, t, olds => ∃ u old more, AtomDone s u op wide it.1 it.2.1 it.2.2 old ∧ AtomRun op wide u rest t more ∧ olds = (it.1.lane, old) :: more

/-- R221 in its width: y and z are the operands (for `cas`: compare and new), r the new value. -/
def AtomHolds (n : Nat) (op : AtomOp) (x y z r : BitVec n) : Prop :=
  match op with
  | .add => r.toNat = (x.toNat + y.toNat) % 2 ^ n
  | .minS => (r = x ∨ r = y) ∧ r.toInt = min x.toInt y.toInt
  | .minZ => r.toNat = min x.toNat y.toNat
  | .maxS => (r = x ∨ r = y) ∧ r.toInt = max x.toInt y.toInt
  | .maxZ => r.toNat = max x.toNat y.toNat
  | .and => r = x &&& y
  | .or => r = x ||| y
  | .xor => r = x ^^^ y
  | .xchg => r = y
  | .cas => r = if x = y then z else x
  | .fadd => True

/-- The release of a core's dirty bytes at a scope (R68, R219): they leave its L1 for the visitor line, which the line of
another may evict (R72), or for their home. -/
structure ReleasedAt (s t : State) (c : Nat) (sc : Scope) : Prop where
  clean : ∀ k ∈ (s.core c).dirty, ∀ o, (get {} (t.core c).l1 k).dirty o = false
  home : ∀ k ∈ (s.core c).dirty, ∀ o b, get? (get {} (s.core c).l1 k).bytes o = some (b, true) →
    (needsVisitor (dieOf c) k (get {} (s.core c).l1 k).ms = false ∨ sc = .sys ∨ (sc = .pkg ∧ lineHost k = false)) → t.homeByte k o = b
  visitor : ∀ k ∈ (s.core c).dirty, ∀ o b, get? (get {} (s.core c).l1 k).bytes o = some (b, true) →
    needsVisitor (dieOf c) k (get {} (s.core c).l1 k).ms = true → (sc = .suite ∨ sc = .die ∨ (sc = .pkg ∧ lineHost k = true)) →
    get? (get {} (t.die (dieOf c)).visitors k).bytes o = some (b, true) ∨ t.homeByte k o = b
  beside : StoreBeside s t
  scr : ∀ j, (t.team j).scr = (s.team j).scr
  groups : t.groups = s.groups

/-- The L1s of a core's path hold each line where its accesses look for it (R71), and no byte beyond a line. -/
def L1Place (s : State) (c : Nat) (fused : Bool) : Prop :=
  ∀ j ∈ l1Cores fused c, ∀ k l, get? (s.core j).l1 k = some l → l1Core fused c k = j ∧ ∀ o, 128 ≤ o → get? l.bytes o = none

/-- The accesses of a list that share a line agree on what its page is. -/
def LinesAgree (as bs : List Acc) : Prop :=
  ∀ a ∈ as, ∀ b ∈ bs, ∀ p q, lineOf a.tgt = some p → lineOf b.tgt = some q → p.1 = q.1 → p.2 = q.2

/-- A core's L1 as runs leave it: each line once, each byte of a line once, a visitor line only for a line that goes through one (R21, R73), and no line of
its dirty-line FIFO dirty on another die. -/
structure L1Sound (s : State) (c : Nat) : Prop where
  once : LinesOnce (s.core c).l1
  vonce : LinesOnce (s.die (dieOf c)).visitors
  offs : ∀ k o, 128 ≤ o → get? (get {} (s.core c).l1 k).bytes o = none ∧ get? (get {} (s.die (dieOf c)).visitors k).bytes o = none
  direct : ∀ k l, get? (s.core c).l1 k = some l → needsVisitor (dieOf c) k l.ms = false → get? (s.die (dieOf c)).visitors k = none
  elsewhere : LinesIn s ∧ CachesOnce s ∧ ∀ k ∈ (s.core c).dirty, ∀ e l, e ≠ dieOf c → get? (s.die e).visitors k = some l → ∀ o, l.dirty o = false

/-! ### Groups, records and the distributor -/

/-- A group as it starts (R31, R36): 64 lanes with their identities at the card's entry, one fresh frame of its role, s16 to s31 from the card, and
everything else 0. -/
structure StartsAs (gr : Grid) (k t n : Nat) (g : Group) : Prop where
  place : g.live = true ∧ g.grid = k ∧ g.team = t ∧ g.num = n ∧ g.role = gr.roleOf n
  lanes : g.lanes.present = BitVec.allOnes 64 ∧ g.lanes.fin = 0 ∧ g.lanes.waits = []
  identity : ∀ l, l < 64 → (g.lanes.tid.toList.getD l 0).toNat = (64 * n + l) % 1024 ∧ pcOf g.lanes.pc l = BitVec.ofNat 64 (fieldAt gr.card 24 8)
  frame : ∃ f, g.frames = [f] ∧ f.nv = cardByte gr.card (49 + 4 * gr.roleOf n) ∧ f.nm = 16 * cardByte gr.card (50 + 4 * gr.roleOf n) ∧
    f.lanes = BitVec.allOnes 64 ∧ f.spilled = false
  rows : ∀ r, g.row r = {} ∧ g.mrow r = {}
  scalars : ∀ r, g.sreg r = if 16 ≤ r ∧ r < 32 then ⟨BitVec.ofNat 64 (fieldAt gr.card (128 + 8 * (r - 16)) 8), false⟩ else {}
  preds : ∀ p, g.pred p = 0
  mode : g.regs.mode = false ∧ g.regs.traps = [] ∧ g.regs.valid = 0
  idle : g.mio = {} ∧ g.park = none ∧ g.stall = none

/-- A group whose lanes no longer wait for anything that satisfies `p` (R39). -/
def goOnFrom (g : Group) (p : Wait → Bool) : Group :=
  { g with lanes := { g.lanes with waits := g.lanes.waits.filter fun w => !p w.1 } }

/-- A record goes to the home queue of grid `k` while that queue is disabled: the queue holds it (R403). -/
def HeldAtHome (s t : State) (k : Nat) (r : Rec) : Prop :=
  t.queue (s.grid k).vf (s.grid k).home = { s.queue (s.grid k).vf (s.grid k).home with
    held := (s.queue (s.grid k).vf (s.grid k).home).held ++ [Rec.bytes r] }

/-- The home queue of a grid is disabled, and the link is up. -/
def HomeOff (s : State) (k : Nat) : Prop := s.linkUp = true ∧ (s.queue (s.grid k).vf (s.grid k).home).cb.enabled = false

/-- A ring has room for one more record and holds none back (R402). -/
def RingRoom (r : Ring) : Prop := r.set = true ∧ r.held = [] ∧ r.prod - r.cons < r.size
/-- The record `b` has been written at the ring's producer (R375, R402). -/
def Rung (host host' : Mem) (r r' : Ring) (b : List Byte) : Prop :=
  host' = host.writeN (r.base + 64 * (r.prod % r.size)) b ∧ r' = { r with prod := r.prod + 1 }

/-- No frame wait stands in line on any core. -/
def NoLine (s : State) : Prop := ∀ j, (s.core j).line = []

/-- A grid as it enters the line (R302, R307): the card, the number, the priority under the cap, nothing placed. -/
def Accepted (s t : State) (vf home : Nat) (card : List Byte) (cmd : Option Nat) (n : W32) : Prop :=
  (∃ g, get? t.grids (vf * 2 ^ 32 + n.toNat) = some g ∧ g.vf = vf ∧ g.num = n ∧ g.card = card ∧ g.home = home ∧ g.cmd = cmd ∧
    g.prio = min (cardByte card 3 % 8) (s.vf vf).maxprio ∧ g.run = {}) ∧
  (∀ k, k ≠ vf * 2 ^ 32 + n.toNat → get? t.grids k = get? s.grids k) ∧
  (t.vf vf).nextGrid = (if n.toNat = 2 ^ 32 - 1 then 1 else n + 1) ∧ n = (s.vf vf).nextGrid

/-- A launch card that the distributor accepts at once (R300 to R302): its tables do not wait for the link (R462) and are readable, it is not refused, no
quota is in its way, it has no attic, its number is free. -/
def Acceptable (s : State) (vf home : Nat) (card : List Byte) (cmd : Option Nat) : Prop :=
  s.tablesHeld vf card true = false ∧
  ∃ g u, g = { noGrid with vf := vf, card := card, bind := g.bind, pool := g.pool, prio := cardByte card 3 % 8, home := home, cmd := cmd } ∧
    (let b := if fieldAt card 72 4 = 0 then (some [], s) else s.fwGet 4 vf home (fieldAt card 64 8) 384
     b.1 = some g.bind ∧ b.2.readPool vf home (fieldAt card 32 8) (min (fieldAt card 40 2) 256) = (some g.pool, u)) ∧
    u.refusal g false false = none ∧ u.acceptWaits g = false ∧ g.recordable = false ∧ get? s.grids (vf * 2 ^ 32 + (s.vf vf).nextGrid.toNat) = none

/-! ### Engines, pantry slices and work queues -/

/-- A job of the copy engine whose write range A lies in its team's own scratchpad from `off` on, n bytes, and that is not guarded. -/
def OwnScratch (s : State) (j : Job) (off n : Nat) : Prop :=
  cd j.card 48 = scrBase + off ∧ off + n ≤ (s.grid (s.team j.team).grid).alloc ∧ (s.grid (s.team j.team).grid).alloc ≤ 0x1000000000 ∧
    s.guardOpen j.team = false

/-- Job `j` runs on the copy engine, it is its turn (R235), no chunk of it is done, and it has one chunk of n bytes (R248). -/
def OneChunk (s : State) (c i : Nat) (j : Job) (n : Nat) : Prop :=
  s.job c i = some j ∧ s.serves c = some i ∧ j.st = .running ∧ j.done = [] ∧ s.engineStopped j = false ∧ cardXqd j.card = false ∧ cardMoved j.card = n ∧ 0 < n ∧ n ≤ 65536

/-- The job has done its only chunk: bytes `v` stand in its team's scratchpad from `off` on, all others stay (R248). -/
def ChunkDone (s t : State) (c i : Nat) (j : Job) (off n : Nat) (v : Nat → Byte) : Prop :=
  t.job c i = some { j with st := .completing, done := [0], stop := none } ∧
  (∀ a, (t.team j.team).scr.read a = if off ≤ a ∧ a < off + n then v (a - off) else (s.team j.team).scr.read a) ∧
  (∀ q, q ≠ j.team → t.team q = s.team q) ∧ t.mem = s.mem ∧ t.groups = s.groups

/-- The first item of a region that matches a pattern, at place n (R269, R272). -/
def FirstMatch (items : List (Nat × List W64)) (p : List W64) (n : Nat) (i : Nat × List W64) : Prop :=
  items[n]? = some i ∧ itemMatches i.2 p = true ∧ ∀ m x, m < n → items[m]? = some x → itemMatches x.2 p = false

/-- Nothing but requests, regions and message counts has changed. -/
def PantryBeside (s t : State) : Prop := t = { s with preqs := t.preqs, spaces := t.spaces, dies := t.dies, ids := t.ids }

/-- Request `id` is in flight for region `g` with a message that wants `dep` and `take`; no older message of its lane is on the way to its slice
(R271). -/
def InFlight (s : State) (id : Nat) (r : PReq) (g : Region) (dep take : Bool) : Prop :=
  get? s.preqs id = some r ∧ r.st = 0 ∧ r.msg.dep = dep ∧ (dep = false → r.msg.take = take) ∧ s.panBehind id r = false ∧ get? (s.space r.asn).regions r.msg.region = some g

/-! ### Commands and registers -/

/-- Command `b` stands at index i of a queue that runs, is the next to start, waits for nothing before it, it is the queue's turn (R372), and no field of it
fails (R365 to R369). -/
structure Starts (s : State) (vf q i : Nat) (b : List Byte) : Prop where
  runs : s.queueRuns vf q = true
  next : (s.queue vf q).nextCmd = some (i, { bytes := b })
  here : get? (s.queue vf q).cmds i = some { bytes := b }
  fence : cardByte b 1 / 2 % 2 = 1 ∨ cardByte b 0 = 5 → (s.queue vf q).cb.done = i
  turn : s.hasTurn vf q = true
  fields : s.cmdBad vf b = none

/-- The state in which a command has started: the turn has passed to the queues after it (R372), and its result word is written (R369). -/
def Begun (s : State) (vf q i r : Nat) : State := (s.takeTurn vf q).cmdBegin vf q i r

/-- The event of a command acts on it: the command starts, `E` relates the state in which it has started to the one after its effect, and it completes with
status 0 (R366, R369). -/
def Acts (e : Instr) (vf q op : Nat) (sub : Option Nat) (E : State → List Byte → State → Prop) : Prop :=
  ∀ s i b, Starts s vf q i b → cardByte b 0 = op → (∀ n, sub = some n → cardByte b 8 = n) →
    ∃ t u, exec e s = .next t ∧ E (Begun s vf q i 0) b u ∧ t = u.cmdDone vf q i 0

/-- The event of a command refuses it when a field fails (R367, R472). -/
def Refuses (e : Instr) (vf q op : Nat) (sub : Option Nat) : Prop :=
  ∀ s i b c off, s.queueRuns vf q = true → (s.queue vf q).nextCmd = some (i, c) → c.bytes = b → cardByte b 0 = op → (∀ n, sub = some n → cardByte b 8 = n) →
    (cardByte b 1 / 2 % 2 = 1 ∨ cardByte b 0 = 5 → (s.queue vf q).cb.done = i) → s.hasTurn vf q = true → s.cmdBad vf b = some off →
    exec e s = .next ((s.takeTurn vf q).cmdRefuse vf q i 0x0013 ((s.queue vf q).slotAddr i) off)

/-- A VF's queues aside, nothing of it but what `f` says has changed. -/
def VfBecomes (s u : State) (v : Nat) (f : Vf → Vf) : Prop := u = s.setVf v (f (s.vf v))

/-- What address space `m` held is wiped, and may be given again once that is acknowledged (R380, R381). -/
def Wiped (s u : State) (m : Nat) : Prop :=
  (∀ r ∈ s.held m, ∀ a, r.1 ≤ a → a < r.1 + r.2 → u.mem.dev.read a = 0) ∧ ∀ f ∈ framesOf (s.held m), f ∈ u.mod2.wiping

/-- The event does what the register write at an offset of a window does (R6, R362). -/
def SameWrite (e : Instr) (vf off : Nat) (v : W64) : Prop := ∀ s, s.mmio = true → exec e s = exec (.registerWrite vf off v) s

/-! ### The module -/

/-- What a reset of the module leaves (R380, R388): no work, no memory of the module, the start before verification, PART0 with everything and no other
partition enabled. -/
structure AfterReset (t : State) : Prop where
  work : t.groups = [] ∧ t.teams = [] ∧ t.grids = [] ∧ t.bars = [] ∧ t.preqs = []
  units : t.cores = [] ∧ t.studies = [] ∧ t.dies = [] ∧ t.spaces = [] ∧ t.vfs = []
  memory : t.mem.dev = [] ∧ t.mem.devPx = [] ∧ t.mem.parlours = [] ∧ t.mem.parPx = []
  stage : t.mod_.stage = 0 ∧ t.mod_.verified = false ∧ t.mod_.powered = true ∧ t.mod_.link = {}
  parts : (t.part 0).reg = 0x18020080200 ∧ ∀ p, p ≠ 0 → (t.part p).reg.getLsbD 40 = false

/-- A class 0 record of the module is counted, and no more (R401, R402). -/
def Counted (s : State) : W64 := if s.mod2.pferrc0 = -1 then s.mod2.pferrc0 else s.mod2.pferrc0 + 1

/-- One sample of a wear register (R383): a half swing ends when the temperature has moved 40 degrees back from its extreme. -/
def Sampled (w w' : Wear) (x : Int) : Prop :=
  w'.hours = w.hours ∧ w'.pcyc = w.pcyc ∧ match w.ext with
    | none => w'.half = w.half ∧ w'.ext = some x ∧ w'.rising = false
    | some e =>
      if w.rising then (if x + 40 ≤ e then w'.half = w.half + 1 ∧ w'.rising = false ∧ w'.ext = some x
        else w'.half = w.half ∧ w'.rising = true ∧ w'.ext = some (max e x))
      else if e + 40 ≤ x then w'.half = w.half + 1 ∧ w'.rising = true ∧ w'.ext = some x
      else w'.half = w.half ∧ w'.rising = false ∧ w'.ext = some (min e x)

end Sys2Proof.Claims

open Sys2Proof Sys2Proof.Machine Sys2Proof.Claims

/-! ## Lane instructions -/

/-- R149: each of the twenty integer operations writes its element results (R83, R84) into d of the active lanes, and changes nothing else. -/
def Obligations.IntegerLaneResults : Prop :=
  ∀ o (f : V3 IntTy),
    (f.ty ≠ .p64 → RowResult (intInstr o f) f.g 4 (opV3 1 f.a f.b (o == .mad) f.nw f.d) f.d f.nw fun c l r =>
      IntWord o f.ty (word c f.a l) (word c f.b l) (rowWord c f.d l) r) ∧
    (f.ty = .p64 → PairResult (intInstr o f) f.g (opV3 2 f.a f.b (o == .mad) f.nw f.d) f.d f.nw fun c l r =>
      IntHolds o 64 (pair c f.a l) (pair c f.b l) (pair c (.row f.d) l) r)

/-- R151: the immediate forms. -/
def Obligations.ImmediateLaneResults : Prop :=
  (∀ f : VI, RowResult (.addi f) f.g 4 (opU 1 f.a f.nw f.d) f.d f.nw fun c l r =>
    (r.toNat : Int) = ((word c f.a l).toNat + f.imm.toInt) % 2 ^ 32) ∧
  (∀ f : VI, RowResult (.andi f) f.g 4 (opU 1 f.a f.nw f.d) f.d f.nw fun c l r =>
    ∀ i, i < 32 → r.getLsbD i = ((word c f.a l).getLsbD i && f.imm.getLsbD i)) ∧
  (∀ f : VI, RowResult (.ori f) f.g 4 (opU 1 f.a f.nw f.d) f.d f.nw fun c l r =>
    ∀ i, i < 32 → r.getLsbD i = ((word c f.a l).getLsbD i || f.imm.getLsbD i)) ∧
  (∀ f : VI, RowResult (.xori f) f.g 4 (opU 1 f.a f.nw f.d) f.d f.nw fun c l r =>
    ∀ i, i < 32 → r.getLsbD i = ((word c f.a l).getLsbD i ^^ f.imm.getLsbD i)) ∧
  (∀ f : VIs, RowResult (.shli f) f.g 4 (opU 1 f.a f.nw f.d) f.d f.nw fun c l r =>
    r.toNat = (word c f.a l).toNat * 2 ^ f.amt.val % 2 ^ 32) ∧
  (∀ f : VIs, RowResult (.shri f) f.g 4 (opU 1 f.a f.nw f.d) f.d f.nw fun c l r => r.toNat = (word c f.a l).toNat / 2 ^ f.amt.val) ∧
  (∀ f : VIs, RowResult (.sari f) f.g 4 (opU 1 f.a f.nw f.d) f.d f.nw fun c l r => r.toInt = (word c f.a l).toInt / 2 ^ f.amt.val) ∧
  (∀ f : VIm, RowResult (.movi f) f.g 4 { dsts := [(f.d.val, 1)], nw := f.nw } f.d f.nw fun _ _ r => r.toInt = f.imm.toInt)

/-- R157: `mov`, `abs`, `neg` and `not` on rows and on pairs, `clz`, `popc` and `brev` on rows. -/
def Obligations.IntegerUnaryResults : Prop :=
  (∀ f : U2, (f.pair = false → RowResult (.mov f) f.g 4 (opU 1 f.a f.nw f.d) f.d f.nw fun c l r => r = word c f.a l) ∧
    (f.pair = true → PairResult (.mov f) f.g (opU 2 f.a f.nw f.d) f.d f.nw fun c l r => r = pair c f.a l)) ∧
  (∀ f : U2, (f.pair = false → RowResult (.abs f) f.g 4 (opU 1 f.a f.nw f.d) f.d f.nw fun c l r => r.toNat = (word c f.a l).toInt.natAbs) ∧
    (f.pair = true → PairResult (.abs f) f.g (opU 2 f.a f.nw f.d) f.d f.nw fun c l r => r.toNat = (pair c f.a l).toInt.natAbs)) ∧
  (∀ f : U2, (f.pair = false → RowResult (.neg f) f.g 4 (opU 1 f.a f.nw f.d) f.d f.nw fun c l r =>
      (r.toNat : Int) = -((word c f.a l).toNat : Int) % 2 ^ 32) ∧
    (f.pair = true → PairResult (.neg f) f.g (opU 2 f.a f.nw f.d) f.d f.nw fun c l r => (r.toNat : Int) = -((pair c f.a l).toNat : Int) % 2 ^ 64)) ∧
  (∀ f : U2, (f.pair = false → RowResult (.not f) f.g 4 (opU 1 f.a f.nw f.d) f.d f.nw fun c l r =>
      ∀ i, i < 32 → r.getLsbD i = !(word c f.a l).getLsbD i) ∧
    (f.pair = true → PairResult (.not f) f.g (opU 2 f.a f.nw f.d) f.d f.nw fun c l r => ∀ i, i < 64 → r.getLsbD i = !(pair c f.a l).getLsbD i)) ∧
  (∀ f : U1, RowResult (.clz f) f.g 4 (opU 1 f.a f.nw f.d) f.d f.nw fun c l r =>
    r.toNat ≤ 32 ∧ (∀ i, 32 - r.toNat ≤ i → (word c f.a l).getLsbD i = false) ∧ (r.toNat < 32 → (word c f.a l).getLsbD (31 - r.toNat) = true)) ∧
  (∀ f : U1, RowResult (.popc f) f.g 4 (opU 1 f.a f.nw f.d) f.d f.nw fun c l r =>
    r.toNat = (List.range 32).countP fun i => (word c f.a l).getLsbD i) ∧
  (∀ f : U1, RowResult (.brev f) f.g 4 (opU 1 f.a f.nw f.d) f.d f.nw fun c l r => ∀ i, i < 32 → r.getLsbD i = (word c f.a l).getLsbD (31 - i))

/-- R117, R172: the compact forms, of two bytes, are those of the 32-bit entries with a = d, no guard and nw = 0. -/
def Obligations.CompactLaneResults : Prop :=
  (∀ f : C16, RowResult (.movCompact f) none 2 { len := 2, srcs := [(f.e, 1)], dsts := [(f.d.val, 1)] } f.d false fun c l r => r = word c f.e l) ∧
  (∀ f : C16, RowResult (.addCompact f) none 2 (opC f) f.d false fun c l r => IntHolds .add 32 (rowWord c f.d l) (word c f.e l) 0 r) ∧
  (∀ f : C16, RowResult (.subCompact f) none 2 (opC f) f.d false fun c l r => IntHolds .sub 32 (rowWord c f.d l) (word c f.e l) 0 r) ∧
  (∀ f : C16, RowResult (.andCompact f) none 2 (opC f) f.d false fun c l r => IntHolds .and 32 (rowWord c f.d l) (word c f.e l) 0 r) ∧
  (∀ f : C16, RowResult (.orCompact f) none 2 (opC f) f.d false fun c l r => IntHolds .or 32 (rowWord c f.d l) (word c f.e l) 0 r) ∧
  (∀ f : C16, RowResult (.xorCompact f) none 2 (opC f) f.d false fun c l r => IntHolds .xor 32 (rowWord c f.d l) (word c f.e l) 0 r) ∧
  (∀ f : C16, RowResult (.shlCompact f) none 2 (opC f) f.d false fun c l r => IntHolds .shl 32 (rowWord c f.d l) (word c f.e l) 0 r) ∧
  (∀ f : C16, RowResult (.shrCompact f) none 2 (opC f) f.d false fun c l r => IntHolds .shr 32 (rowWord c f.d l) (word c f.e l) 0 r) ∧
  (∀ f : C16, RowResult (.minCompact f) none 2 (opC f) f.d false fun c l r => IntHolds .minS 32 (rowWord c f.d l) (word c f.e l) 0 r) ∧
  (∀ f : C16, RowResult (.maxCompact f) none 2 (opC f) f.d false fun c l r => IntHolds .maxS 32 (rowWord c f.d l) (word c f.e l) 0 r) ∧
  (∀ f : C16, RowResult (.mulCompact f) none 2 (opC f) f.d false fun c l r => IntHolds .mul 32 (rowWord c f.d l) (word c f.e l) 0 r) ∧
  (∀ f : C16, RowResult (.faddCompact f) none 2 (opC f) f.d false fun c l r => r = fopWord .add .f32 (rowWord c f.d l) (word c f.e l) 0) ∧
  (∀ f : C16, RowResult (.fsubCompact f) none 2 (opC f) f.d false fun c l r => r = fopWord .sub .f32 (rowWord c f.d l) (word c f.e l) 0) ∧
  (∀ f : C16, RowResult (.fmulCompact f) none 2 (opC f) f.d false fun c l r => r = fopWord .mul .f32 (rowWord c f.d l) (word c f.e l) 0) ∧
  (∀ f : C16i, RowResult (.addq f) none 2 { len := 2, srcs := [(.row f.d, 1)], dsts := [(f.d.val, 1)] } f.d false fun c l r =>
    (r.toNat : Int) = ((rowWord c f.d l).toNat + f.imm.toInt) % 2 ^ 32) ∧
  (∀ f : C16i, RowResult (.movq f) none 2 { len := 2, dsts := [(f.d.val, 1)] } f.d false fun _ _ r => r.toInt = f.imm.toInt)

/-- R152, R153: the floating-point operations on rows and pairs, and `fdot2`. -/
def Obligations.FloatLaneResults : Prop :=
  (∀ o (f : V3 FloTy),
    (f.ty ≠ .f64 → RowResult (floInstr o f) f.g 4 (opV3 1 f.a f.b (o == .fma) f.nw f.d) f.d f.nw fun c l r =>
      r = fopWord o f.ty (word c f.a l) (word c f.b l) (rowWord c f.d l)) ∧
    (f.ty = .f64 → PairResult (floInstr o f) f.g (opV3 2 f.a f.b (o == .fma) f.nw f.d) f.d f.nw fun c l r =>
      r = fopPair o (pair c f.a l) (pair c f.b l) (pair c (.row f.d) l))) ∧
  (∀ f : V3 Bool, RowResult (.fdot2 f) f.g 4 (opV3 1 f.a f.b true f.nw f.d) f.d f.nw fun c l r =>
    r = fdot2 f.ty (word c f.a l) (word c f.b l) (rowWord c f.d l))

/-- R157, R158: the unary floating-point operations. The bits of `fabs` and `fneg` are said outright. -/
def Obligations.FloatUnaryResults : Prop :=
  (∀ f : U1, RowResult (.fabs f) f.g 4 (opU 1 f.a f.nw f.d) f.d f.nw fun c l r =>
    r.getLsbD 31 = false ∧ ∀ i, i < 31 → r.getLsbD i = (word c f.a l).getLsbD i) ∧
  (∀ f : U1, RowResult (.fneg f) f.g 4 (opU 1 f.a f.nw f.d) f.d f.nw fun c l r =>
    (r.getLsbD 31 = !(word c f.a l).getLsbD 31) ∧ ∀ i, i < 31 → r.getLsbD i = (word c f.a l).getLsbD i) ∧
  (∀ f : U1, RowResult (.frcp f) f.g 4 (opU 1 f.a f.nw f.d) f.d f.nw fun c l r => r = frcp (word c f.a l)) ∧
  (∀ f : U1, RowResult (.frsq f) f.g 4 (opU 1 f.a f.nw f.d) f.d f.nw fun c l r => r = frsq (word c f.a l)) ∧
  (∀ f : U1, RowResult (.fsqrt f) f.g 4 (opU 1 f.a f.nw f.d) f.d f.nw fun c l r => r = fsqrt (word c f.a l)) ∧
  (∀ f : U1, RowResult (.fexp2 f) f.g 4 (opU 1 f.a f.nw f.d) f.d f.nw fun c l r => r = fexp2 (word c f.a l)) ∧
  (∀ f : U1, RowResult (.flog2 f) f.g 4 (opU 1 f.a f.nw f.d) f.d f.nw fun c l r => r = flog2 (word c f.a l)) ∧
  (∀ f : U1, RowResult (.frndN f) f.g 4 (opU 1 f.a f.nw f.d) f.d f.nw fun c l r => r = frnd .rn (word c f.a l)) ∧
  (∀ f : U1, RowResult (.frndZ f) f.g 4 (opU 1 f.a f.nw f.d) f.d f.nw fun c l r => r = frnd .rz (word c f.a l)) ∧
  (∀ f : U1, RowResult (.frndM f) f.g 4 (opU 1 f.a f.nw f.d) f.d f.nw fun c l r => r = frnd .rm (word c f.a l)) ∧
  (∀ f : U1, RowResult (.frndP f) f.g 4 (opU 1 f.a f.nw f.d) f.d f.nw fun c l r => r = frnd .rp (word c f.a l)) ∧
  (∀ f : U1, RowResult (.fclass f) f.g 4 (opU 1 f.a f.nw f.d) f.d f.nw fun c l r => r = fclass (word c f.a l) ∧ ∃ i, i < 10 ∧ r.toNat = 2 ^ i)

/-- R86, R89, R95, R98 to R100: the values of floating-point arithmetic. For f32: a NaN operand, Inf − Inf and Inf × 0 give the canonical NaN, an exact zero
sum of opposite signs is +0, and sums, products and `fma` that are not zero are the exact numbers rounded once to nearest even; `cvt` from an integer and from
f64 rounds by its mode. A narrow conversion gives the nearest value of the format, or the nearest toward zero, for a number within its range; each block of
`mx` is added exactly and rounded once; and the worked case of R100. -/
def Obligations.FloatSpecialValues : Prop :=
  (∀ (o : FOp2) (x y z : W32), o ≠ .min → o ≠ .max → ((fmt32.val x.toNat).isNan ∨ (fmt32.val y.toNat).isNan ∨ (o = .fma ∧ (fmt32.val z.toNat).isNan)) →
    fopWord o .f32 x y z = 0x7FC00000) ∧
  fopWord .add .f32 0x7F800000 0xFF800000 0 = 0x7FC00000 ∧ fopWord .sub .f32 0x7F800000 0x7F800000 0 = 0x7FC00000 ∧
  (∀ x : W32, x = 0x7F800000 ∨ x = 0xFF800000 → ∀ y : W32, y = 0 ∨ y = 0x80000000 → fopWord .mul .f32 x y 0 = 0x7FC00000) ∧
  (∀ x : W32, x.toNat % 2 ^ 31 < 0x7F800000 → fopWord .sub .f32 x x 0 = 0 ∧ fopWord .add .f32 x (x ^^^ 0x80000000) 0 = 0) ∧
  (∀ x : W32, 0 < x.toNat % 2 ^ 31 → x.toNat % 2 ^ 31 < 0x7F800000 → fopWord .add .f32 x 0 0 = x ∧ fopWord .mul .f32 x 0x3F800000 0 = x) ∧
  (∀ x y z : W32, f32Fin x → f32Fin y → f32Fin z → (f32Q x + f32Q y ≠ 0 → Rounded .rn (f32Q x + f32Q y) (fopWord .add .f32 x y z)) ∧
    (f32Q x - f32Q y ≠ 0 → Rounded .rn (f32Q x - f32Q y) (fopWord .sub .f32 x y z)) ∧
    (f32Q x * f32Q y ≠ 0 → Rounded .rn (f32Q x * f32Q y) (fopWord .mul .f32 x y z)) ∧
    (f32Q x * f32Q y + f32Q z ≠ 0 → Rounded .rn (f32Q x * f32Q y + f32Q z) (fopWord .fma .f32 x y z))) ∧
  (∀ mode (x y : W32), (x ≠ 0 → Rounded mode x.toInt (cvt 0 mode x y).1 ∧ Rounded mode x.toNat (cvt 1 mode x y).1) ∧
    (f64Fin (join x y) → f64Q (join x y) ≠ 0 → Rounded mode (f64Q (join x y)) (cvt 20 mode x y).1)) ∧
  (∀ (f : FmtWord) (x u : W32), f.valid = true → f.rnd ≤ 1 → f32Fin x →
    (∃ c d v w, c < 2 ^ f.w ∧ d < 2 ^ f.w ∧ finQ (narrowValue f c) = some v ∧ finQ (narrowValue f d) = some w ∧ v ≤ f32Q x ∧ f32Q x ≤ w) →
    let r := narrowRound f (fmt32.val x.toNat) u
    r < 2 ^ f.w ∧ ∃ v, finQ (narrowValue f r) = some v ∧ ∀ d y, d < 2 ^ f.w → finQ (narrowValue f d) = some y →
      (f.rnd = 0 → |v - f32Q x| ≤ |y - f32Q x|) ∧ (f.rnd = 1 → |v| ≤ |f32Q x| ∧ (0 ≤ y * f32Q x → |y| ≤ |f32Q x| → |y| ≤ |v|))) ∧
  (∀ (f : FmtWord) (a b sa sb : Nat → W32) (acc : W32) (x y p q : Nat → ℚ), f.valid = true ∨ f.validWide = true →
    (∀ k, k < mxK f → finQ (mxElem f a k) = some (x k) ∧ finQ (mxElem f b k) = some (y k)) →
    (∀ c, c < mxBlocks f → finQ (mxScale f sa c) = some (p c) ∧ finQ (mxScale f sb c) = some (q c)) →
    ∃ st : Nat → W32, st 0 = acc ∧ mxDot f a b sa sb acc = st (mxBlocks f) ∧ ∀ c, c < mxBlocks f → f32Fin (st c) →
      let n := mxK f / mxBlocks f
      let t : ℚ := ((List.range n).map fun k => x (c * n + k) * y (c * n + k)).sum * (p c * q c)
      (t = 0 → st (c + 1) = st c) ∧ (t ≠ 0 → if f32Q (st c) + t = 0 then st (c + 1) = 0 else Rounded .rn (f32Q (st c) + t) (st (c + 1)))) ∧
  mxDot ⟨0x60767⟩ (fun r => if r < 8 then 0x78787878 else 0) (fun r => if r < 8 then 0x70707070 else 0) (fun _ => 20 + 127 * 256) (fun _ => 80 + 127 * 256) 0 = 0x8000

/-- R159, R160: `cvt` writes the row or the pair of its code, and the exact widenings and the float-to-integer limits are as the table says. -/
def Obligations.ConversionResults : Prop :=
  (∀ f : VCvt, (cvtDstPair f.code = false →
      RowResult (.cvt f) f.g 4 { srcs := [(f.a, if cvtSrcPair f.code then 2 else 1)], dsts := [(f.d.val, 1)], nw := f.nw } f.d f.nw fun c l r =>
        r = (cvt f.code.val f.mode (word c f.a l) (if cvtSrcPair f.code then lane (c.g.srcAt f.a 1) l else 0)).1) ∧
    (cvtDstPair f.code = true →
      PairResult (.cvt f) f.g { srcs := [(f.a, if cvtSrcPair f.code then 2 else 1)], dsts := [(f.d.val, 2)], nw := f.nw } f.d f.nw fun c l r =>
        loW r = (cvt f.code.val f.mode (word c f.a l) (if cvtSrcPair f.code then lane (c.g.srcAt f.a 1) l else 0)).1 ∧
        hiW r = (cvt f.code.val f.mode (word c f.a l) (if cvtSrcPair f.code then lane (c.g.srcAt f.a 1) l else 0)).2)) ∧
  (∀ m x y, (join (cvt 32 m x y).1 (cvt 32 m x y).2).toInt = x.toInt) ∧ (∀ m x y, (join (cvt 33 m x y).1 (cvt 33 m x y).2).toNat = x.toNat) ∧
  (∀ m x y, (cvt 34 m x y).1 = x) ∧ (∀ m x y, (cvt 35 m x y).1.toInt = (x.setWidth 8).toInt) ∧ (∀ m x y, (cvt 36 m x y).1.toInt = (x.setWidth 16).toInt) ∧
  (∀ m x y, (cvt 37 m x y).1.toNat = x.toNat % 2 ^ 8) ∧ (∀ m x y, (cvt 38 m x y).1.toNat = x.toNat % 2 ^ 16) ∧
  (∀ m (x : W32) y, (fmt32.val x.toNat).isNan → (cvt 8 m x y).1 = 0 ∧ (cvt 9 m x y).1 = 0) ∧
  (∀ m y, (cvt 8 m 0x7F800000 y).1 = 0x7FFFFFFF ∧ (cvt 8 m 0xFF800000 y).1 = 0x80000000 ∧ (cvt 9 m 0x7F800000 y).1 = 0xFFFFFFFF ∧ (cvt 9 m 0xFF800000 y).1 = 0)

/-! ## Predicates, selects, bit fields, cross-lane instructions -/

/-- R154: `setp` and `setpi` write the truth of the comparison in the active lanes. -/
def Obligations.ComparisonResults : Prop :=
  (∀ f : VP, f.ty = .i32 → PredResult (.setp f) f.g { srcs := setpSrcs f } f.pd fun c l => IntCmp 32 f.cc.val (word c f.a l) (word c f.b l)) ∧
  (∀ f : VP, f.ty = .i64 → PredResult (.setp f) f.g { srcs := setpSrcs f } f.pd fun c l => IntCmp 64 f.cc.val (pair c f.a l) (pair c f.b l)) ∧
  (∀ f : VP, f.ty = .f32 → PredResult (.setp f) f.g { srcs := setpSrcs f } f.pd fun c l =>
    FloatCmp f.cc.val (fmt32.val (word c f.a l).toNat) (fmt32.val (word c f.b l).toNat)) ∧
  (∀ f : VP, f.ty = .f64 → PredResult (.setp f) f.g { srcs := setpSrcs f } f.pd fun c l =>
    FloatCmp f.cc.val (fmt64.val (pair c f.a l).toNat) (fmt64.val (pair c f.b l).toNat)) ∧
  (∀ f : VPi, PredResult (.setpi f) f.g { srcs := [(f.a, 1)] } f.pd fun c l => IntCmp 32 f.cc.val (word c f.a l) (f.imm.signExtend 32))

/-- R155: the eight operations of predicate logic write their truth tables in the active lanes. -/
def Obligations.PredicateLogicResults : Prop :=
  (∀ f : PL3, PredResult (.pand f) f.g {} f.pd fun c l => has (c.g.pred f.pa) l = true ∧ has (c.g.pred f.pb) l = true) ∧
  (∀ f : PL3, PredResult (.por f) f.g {} f.pd fun c l => has (c.g.pred f.pa) l = true ∨ has (c.g.pred f.pb) l = true) ∧
  (∀ f : PL3, PredResult (.pxor f) f.g {} f.pd fun c l => has (c.g.pred f.pa) l ≠ has (c.g.pred f.pb) l) ∧
  (∀ f : PL3, PredResult (.pandn f) f.g {} f.pd fun c l => has (c.g.pred f.pa) l = true ∧ has (c.g.pred f.pb) l = false) ∧
  (∀ f : PL2, PredResult (.pnot f) f.g {} f.pd fun c l => has (c.g.pred f.pa) l = false) ∧
  (∀ f : PL2, PredResult (.pmov f) f.g {} f.pd fun c l => has (c.g.pred f.pa) l = true) ∧
  (∀ f : PL1, PredResult (.pset f) f.g {} f.pd fun _ _ => True) ∧
  (∀ f : PL1, PredResult (.pclr f) f.g {} f.pd fun _ _ => False)

/-- R156: `sel` writes every lane of the issue mask, bit for bit. -/
def Obligations.SelectResults : Prop :=
  ∀ f : VSel,
    (f.pair = false → RowResult (.sel f) none 4 (opV3 1 f.a f.b false f.nw f.d) f.d f.nw fun c l r =>
      r = if has (c.g.pred f.p) l then word c f.a l else word c f.b l) ∧
    (f.pair = true → PairResult (.sel f) none (opV3 2 f.a f.b false f.nw f.d) f.d f.nw fun c l r =>
      r = if has (c.g.pred f.p) l then pair c f.a l else pair c f.b l)

/-- R164: the bit-field instructions, bit by bit. -/
def Obligations.BitFieldResults : Prop :=
  (∀ f : V2, RowResult (.bfxZ f) f.g 4 (opV3 1 f.a f.b false f.nw f.d) f.d f.nw fun c l r =>
    ∀ i, i < 32 → r.getLsbD i = if i < fieldLen (word c f.b l) then (word c f.a l).getLsbD (fieldPos (word c f.b l) + i) else false) ∧
  (∀ f : V2, RowResult (.bfxS f) f.g 4 (opV3 1 f.a f.b false f.nw f.d) f.d f.nw fun c l r =>
    ∀ i, i < 32 → r.getLsbD i = if i < fieldLen (word c f.b l) then (word c f.a l).getLsbD (fieldPos (word c f.b l) + i)
      else (word c f.a l).getLsbD (fieldPos (word c f.b l) + fieldLen (word c f.b l) - 1)) ∧
  (∀ f : V2, RowResult (.bfi f) f.g 4 (opV3 1 f.a f.b true f.nw f.d) f.d f.nw fun c l r =>
    ∀ i, i < 32 → r.getLsbD i = if fieldPos (word c f.b l) ≤ i ∧ i < fieldPos (word c f.b l) + fieldLen (word c f.b l)
      then (word c f.a l).getLsbD (i - fieldPos (word c f.b l)) else (rowWord c f.d l).getLsbD i)

/-- R165: a shuffle reads the source lane when it exists and is active, and otherwise its own lane. -/
def Obligations.ShuffleResults : Prop :=
  (∀ f : V2, RowResult (.shflIdx f) f.g 4 (opV3 1 f.a f.b false f.nw f.d) f.d f.nw fun c l r => Shuffled c f false l r ((word c f.b l).toNat % 64)) ∧
  (∀ f : V2, RowResult (.shflUp f) f.g 4 (opV3 1 f.a f.b false f.nw f.d) f.d f.nw fun c l r => Shuffled c f true l r (l - ((word c f.b l).toNat % 64))) ∧
  (∀ f : V2, RowResult (.shflDn f) f.g 4 (opV3 1 f.a f.b false f.nw f.d) f.d f.nw fun c l r => Shuffled c f false l r (l + (word c f.b l).toNat % 64)) ∧
  (∀ f : V2, RowResult (.shflXor f) f.g 4 (opV3 1 f.a f.b false f.nw f.d) f.d f.nw fun c l r => Shuffled c f false l r (l ^^^ (word c f.b l).toNat % 64))

/-- R166: votes write one truth value in every active lane; ballots write a scalar, also with no active lane. -/
def Obligations.VoteAndBallotResults : Prop :=
  (∀ f : PL2, PredResult (.voteAny f) f.g {} f.pd fun c _ => ∃ m, m < 64 ∧ voted c f.g f.pa m) ∧
  (∀ f : PL2, PredResult (.voteAll f) f.g {} f.pd fun c _ => ∀ m, m < 64 → has (active c f.g) m = true → voted c f.g f.pa m) ∧
  (∀ f : PL2, PredResult (.voteEq f) f.g {} f.pd fun c _ =>
    ∀ m n, m < 64 → n < 64 → has (active c f.g) m = true → has (active c f.g) n = true → has (c.g.pred f.pa) m = has (c.g.pred f.pa) n) ∧
  (∀ f : LVs, ScalarResult (.ballot f) f.g { sdsts := [f.sd.val], always := true } f.sd fun c v => ∀ m, m < 64 → (v.getLsbD m = true ↔ voted c f.g f.pa m)) ∧
  (∀ f : LVs, ScalarResult (.ballotCnt f) f.g { sdsts := [f.sd.val], always := true } f.sd fun c v =>
    v.toNat = (List.range 64).countP fun m => has (active c f.g) m && has (c.g.pred f.pa) m)

/-- R167, R102, R103: reductions over the active lanes, and scans over those up to a lane or below it: integer sums, minima and maxima, bitwise operations,
f32 minima and maxima by R87, f32 sums by the tree of R102, and the identities. The last clause is the spec's worked table. -/
def Obligations.ReductionAndScanResults : Prop :=
  (∀ f : VRed, RowResult (.redx f) f.g 4 (opU 1 f.a f.nw f.d) f.d f.nw fun c _ r => Reduced f.op (has (active c f.g)) (word c f.a) r) ∧
  (∀ f : VScan, RowResult (.scan f) f.g 4 (opU 1 f.a f.nw f.d) f.d f.nw fun c l r =>
    Reduced f.op (fun m => has (active c f.g) m && (if f.ex then decide (m < l) else decide (m ≤ l))) (word c f.a) r) ∧
  (let x (m : Nat) : W32 := if m = 0 then 0x4B800000 else if m = 1 ∨ m = 2 then 0x3F800000 else 0
   Reduced .addF32 (fun _ => true) x 0x4B800000 ∧ Reduced .addF32 (fun m => m != 3) x 0x4B800000 ∧
   Reduced .addF32 (fun m => m != 1) x 0x4B800000 ∧ Reduced .addF32 (fun m => m != 0) x 0x40000000)

/-- R168: moves between lanes and scalars. -/
def Obligations.LaneScalarMoves : Prop :=
  (∀ f : MVb, RowResult (.vmovs f) f.g 4 { dsts := [(f.v.val, 1)], ssrcs := [f.s.val] } f.v false fun c _ r => r = loW (c.g.s f.s)) ∧
  (∀ f : MVs, ∀ s c, Ready s c → Goes s c (active c f.g) { srcs := [(f.v, 1)], sdsts := [f.s.val], pxMask := some (BitVec.ofNat 64 (2 ^ f.lane.val)) } →
    ∃ t, exec (.smovv f) s = .next t ∧ Issued s t c
      { sc := if active c f.g = 0 then none
          else some (f.s.val, if has c.g.lanes.present f.lane.val then (word c f.v f.lane.val).setWidth 64 else 0) }) ∧
  (∀ f : MVi, ∀ s c, Ready s c → Goes s c (active c f.g) { dsts := [(f.v.val, 1)], ssrcs := [f.s.val] } →
    ∃ t, exec (.vins f) s = .next t ∧ Issued s t c
      { act := if active c f.g = 0 then 0 else BitVec.ofNat 64 (2 ^ f.lane.val), rows := [(f.v.val, fun _ => loW (c.g.s f.s))] })

/-! ## Scalar instructions -/

/-- R169, R84: the scalar operations. -/
def Obligations.ScalarOperationResults : Prop :=
  ∀ o (f : SS), ScalarResult (scalarInstr o f) none { ssrcs := if o = .mov then [f.sa.val] else [f.sa.val, f.sb.val], sdsts := [f.sd.val] } f.sd fun c v =>
    ScalarHolds o (c.g.s f.sa) (c.g.s f.sb) v

/-- R170: `saddi`: its encoding and its effect. -/
def Obligations.SaddiAddsSignedImmediate : Prop :=
  ∀ (imm : BitVec 11) (sa sd : SReg),
    decode (1 + 2 * 50 + 2 ^ 11 * sd.val + 2 ^ 16 * sa.val + 2 ^ 21 * imm.toNat) = .ok (.saddi imm sa sd) ∧
    ScalarResult (.saddi imm sa sd) none { ssrcs := [sa.val], sdsts := [sd.val] } sd fun c v =>
      (v.toNat : Int) = ((c.g.s sa).toNat + imm.toInt) % 2 ^ 64 ∧ -1024 ≤ imm.toInt ∧ imm.toInt ≤ 1023

/-- R171: `sli`, `slh` and `slx`: their encodings and their effects. -/
def Obligations.ScalarConstantResults : Prop :=
  (∀ f : SI, decode (1 + 2 * 51 + 2 ^ 11 * f.sd.val + 2 ^ 16 * f.imm.toNat) = .ok (.sli f) ∧
    ScalarResult (.sli f) none { sdsts := [f.sd.val] } f.sd fun _ v => v.toInt = f.imm.toInt) ∧
  (∀ f : SI, decode (1 + 2 * 52 + 2 ^ 11 * f.sd.val + 2 ^ 16 * f.imm.toNat) = .ok (.slh f) ∧
    ScalarResult (.slh f) none { ssrcs := [f.sd.val], sdsts := [f.sd.val] } f.sd fun c v =>
      v.toInt = f.imm.toInt * 2 ^ 16 + ((c.g.s f.sd).toNat % 2 ^ 16 : Nat)) ∧
  (∀ f : SI, decode (1 + 2 * 53 + 2 ^ 11 * f.sd.val + 2 ^ 16 * f.imm.toNat) = .ok (.slx f) ∧
    ScalarResult (.slx f) none { ssrcs := [f.sd.val], sdsts := [f.sd.val] } f.sd fun c v =>
      v.toInt = f.imm.toInt * 2 ^ 32 + ((c.g.s f.sd).toNat % 2 ^ 32 : Nat))

/-! ## Control -/

/-- R174, R176, R190: `bra`, `jmp` and `nop`. -/
def Obligations.BranchResults : Prop :=
  (∀ off g s c, Ready s c → Goes s c (active c g) {} →
    ∃ t, exec (.bra off g) s = .next t ∧ Issued s t c { pc := fun l => if has (active c g) l then some (target c off) else none }) ∧
  (∀ sa s c, Ready s c → Goes s c (active c none) { ssrcs := [sa.val] } → (c.g.s sa).getLsbD 0 = false →
    ∃ t, exec (.jmp sa) s = .next t ∧ Issued s t c { pc := fun _ => some (c.g.s sa) }) ∧
  (∀ s c, Ready s c → Goes s c (active c none) {} → ∃ t, exec .nop s = .next t ∧ Issued s t c {})

/-- R175: the encoding and the effect of `brs`; cc 6 and 7 are illegal. -/
def Obligations.BrsComparesScalarWithZero : Prop :=
  (∀ (off : BitVec 13) (cc : BrCc) (sa : SReg),
    decode (1 + 2 * 55 + 2 ^ 11 * sa.val + 2 ^ 16 * brsCode cc + 2 ^ 19 * off.toNat) = .ok (.brs off cc sa) ∧
    ∀ s c, Ready s c → Goes s c (active c none) { ssrcs := [sa.val] } →
      ∃ t, exec (.brs off cc sa) s = .next t ∧
        ((brsHolds cc (c.g.s sa).toInt ∧ Issued s t c { pc := fun _ => some (target c off) }) ∨ (¬ brsHolds cc (c.g.s sa).toInt ∧ Issued s t c {}))) ∧
  ∀ (off : BitVec 13) (sa : SReg) (x : Nat), x = 6 ∨ x = 7 →
    ∃ k, decode (1 + 2 * 55 + 2 ^ 11 * sa.val + 2 ^ 16 * x + 2 ^ 19 * off.toNat) = .bad k

/-- R177: the encoding and the effect of `loop`; an S(s) of 1 does not branch, and one of 0 wraps and branches. -/
def Obligations.LoopDecrementsAndBranches : Prop :=
  ∀ (off : BitVec 16) (r : SReg),
    decode (1 + 2 * 59 + 2 ^ 11 * r.val + 2 ^ 16 * off.toNat) = .ok (.loop off r) ∧
    ∀ s c, Ready s c → Goes s c (active c none) { ssrcs := [r.val], sdsts := [r.val] } →
      ∃ (t : State) (v : W64), exec (.loop off r) s = .next t ∧ (v.toNat : Int) = ((c.g.s r).toNat - 1 : Int) % 2 ^ 64 ∧
        ((c.g.s r = 1 ∧ Issued s t c { sc := some (r.val, v) }) ∨ (c.g.s r ≠ 1 ∧ Issued s t c { sc := some (r.val, v), pc := fun _ => some (target c off) }))

/-- R181: `call` and `calli` push a frame when the pool can give its rows at once. -/
def Obligations.CallsPushFrames : Prop :=
  (∀ (f : CL) s c, Ready s c → (Instr.call f).wf = true → Goes s c (active c none) { wait := true } →
    f.e.toNat < (s.gridOf c.g).poolCount → fieldAt ((s.gridOf c.g).poolEntry f.e.toNat) 0 1 = 1 →
    fieldAt ((s.gridOf c.g).poolEntry f.e.toNat) 1 1 = f.nv.val → fieldAt ((s.gridOf c.g).poolEntry f.e.toNat) 2 1 = f.nm16.val →
    f.k.val ≤ c.g.top.nv → f.nv.val ≤ (s.gridOf c.g).roleNv c.g.role → f.nm16.val ≤ (s.gridOf c.g).roleNm c.g.role → c.g.fdepth < 31 →
    RowsFree s c (f.nv.val - f.k.val + 16 * f.nm16.val) →
    ∃ t, exec (.call f) s = .next t ∧ Beside s t c.key ∧ RegsAre (t.grp c.key) c.g.regs ∧
      Pushed c.g (t.grp c.key) f.nv.val (16 * f.nm16.val) f.k.val c.mask (c.pc + 4)
        (BitVec.ofNat 64 (fieldAt ((s.gridOf c.g).poolEntry f.e.toNat) 8 8)) false) ∧
  (∀ (f : CI) s c, Ready s c → (Instr.calli f).wf = true → Goes s c (active c none) { wait := true, ssrcs := [f.s.val] } →
    f.k.val ≤ c.g.top.nv → f.nv.val ≤ (s.gridOf c.g).roleNv c.g.role → f.nm16.val ≤ (s.gridOf c.g).roleNm c.g.role → c.g.fdepth < 31 →
    (c.g.s f.s).getLsbD 0 = false → RowsFree s c (f.nv.val - f.k.val + 16 * f.nm16.val) →
    ∃ t, exec (.calli f) s = .next t ∧ Beside s t c.key ∧ RegsAre (t.grp c.key) c.g.regs ∧
      Pushed c.g (t.grp c.key) f.nv.val (16 * f.nm16.val) f.k.val c.mask (c.pc + 4) (c.g.s f.s) false)

/-- R42, R182: `ret` waits until every lane of its frame has issued it, and the `ret` that completes the frame pops it. -/
def Obligations.RetPopsTheFrame : Prop :=
  (∀ (j : Fin 8) s c, Ready s c → Goes s c (active c none) { wait := true } → 0 < c.g.fdepth → c.g.top.handler = false → j.val ≤ c.g.top.k →
    ¬ EndsFrame c (c.g.atRet ||| c.g.atRti) → ∃ t, exec (.ret j) s = .next t ∧ Issued s t c { wait := true, waits := [(.ret j.val, c.mask)] }) ∧
  (∀ (j : Fin 8) s c f u, Ready s c → Goes s c (active c none) { wait := true, clears := some (c.g.clearedAt (c.g.fdepth - 1) j.val) } → c.g.frames = f :: u :: c.g.frames.tail.tail →
    f.handler = false → j.val ≤ f.k → f.k ≤ u.nv → u.spilled = false → EndsFrame c c.g.atRet → s.flying c.key c.g.fdepth = false →
    (s.core (coreOf c.key)).line = [] →
    ∃ t, exec (.ret j) s = .next t ∧ Beside s t c.key ∧ RegsAre (t.grp c.key) c.g.regs ∧ Returned c (t.grp c.key) f u j.val)

/-- R183: `unwind` pops every frame above depth t at once; %unw takes the old depth, the argument rows of the
frame of depth t + 1 are cleared, and its lanes resume: they wait for nothing any more, and (the model's
reading: LOG 51) leave the lines of hatches and work queues and the barriers that they had issued. -/
def Obligations.UnwindPopsFrames : Prop :=
  ∀ (sa : SReg) s c, Ready s c → Goes s c (active c none) { wait := true, ssrcs := [sa.val], clears := some (c.g.clearedAt (c.g.s sa).toNat 0) } →
    (c.g.s sa).toNat < c.g.fdepth →
    c.g.handlerAbove (c.g.s sa).toNat = none → s.flying c.key ((c.g.s sa).toNat + 1) = false →
    (∀ e ∈ c.g.mio.fifo, e.depth ≤ (c.g.s sa).toNat) → (c.g.frameAt (c.g.s sa).toNat).spilled = false → (s.core (coreOf c.key)).line = [] →
    (c.g.frameAt ((c.g.s sa).toNat + 1)).k ≤ (c.g.frameAt (c.g.s sa).toNat).nv →
    ∃ t u, exec (.unwind sa) s = .next t ∧ Beside s u c.key ∧ t.grp c.key = u.grp c.key ∧
      LinesLeft u t c ((c.g.frameAt ((c.g.s sa).toNat + 1)).lanes) ∧
      (∀ w ∈ (t.grp c.key).lanes.waits, w.2 &&& (c.g.frameAt ((c.g.s sa).toNat + 1)).lanes = 0) ∧
      (∀ l, ((t.grp c.key).bar l).issued = (c.g.bar l).issued &&& ~~~ (c.g.frameAt ((c.g.s sa).toNat + 1)).lanes) ∧
      RegsAre (t.grp c.key) { c.g.regs with unw := c.g.fdepth } ∧
      (t.grp c.key).fdepth = (c.g.s sa).toNat ∧ (t.grp c.key).frames.tail = c.g.frames.drop (c.g.fdepth - (c.g.s sa).toNat + 1) ∧
      (t.grp c.key).top = { c.g.frameAt (c.g.s sa).toNat with v := (t.grp c.key).top.v, kept := (t.grp c.key).top.kept, away := (t.grp c.key).top.away } ∧
      (∀ i l, i < (c.g.frameAt ((c.g.s sa).toNat + 1)).k → l < 64 →
        has ((c.g.frameAt ((c.g.s sa).toNat + 1)).lanes &&& c.g.lanes.present &&& ~~~ c.g.lanes.fin) l →
        lane ((t.grp c.key).row ((c.g.frameAt (c.g.s sa).toNat).nv - (c.g.frameAt ((c.g.s sa).toNat + 1)).k + i)).w l = 0) ∧
      (∀ r, r < (c.g.frameAt (c.g.s sa).toNat).nv - (c.g.frameAt ((c.g.s sa).toNat + 1)).k →
        (t.grp c.key).row r = get {} (c.g.frameAt (c.g.s sa).toNat).v r) ∧
      (∀ l, l < 64 → has ((c.g.frameAt ((c.g.s sa).toNat + 1)).lanes &&& ~~~ c.g.lanes.fin) l →
        pcOf (t.grp c.key).lanes.pc l = (c.g.frameAt ((c.g.s sa).toNat + 1)).ret)

/-- R190, R315: `exit` finishes the lanes of the issue mask when other lanes of the frame go on; `yield` waits for as many issues as other groups of its
scheduler are ready, as the step of the `yield` has noted them (`StepRunsDecoded`; LOG 104: whether a pipe is free is a free value). -/
def Obligations.ExitAndYieldResults : Prop :=
  (∀ s c, Ready s c → Goes s c (active c none) { wait := true } → c.g.running &&& ~~~ (c.mask ||| c.g.atRet ||| c.g.atRti) ≠ 0 →
    (∀ l, (c.g.bar l).issued = 0) → (s.team c.g.team).bins = [] → (s.core (coreOf c.key)).line = [] →
    ∃ t, exec .exit s = .next t ∧ Beside s t c.key ∧ RegsAre (t.grp c.key) c.g.regs ∧ (t.grp c.key).lanes.fin = c.g.lanes.fin ||| c.mask ∧
      FramesStay c.g.frames (t.grp c.key) ∧
      t.grp c.key = { c.g with lanes := { c.g.lanes with pc := (t.grp c.key).lanes.pc, fin := c.g.lanes.fin ||| c.mask }, frames := (t.grp c.key).frames
                               regs := (t.grp c.key).regs
                               study := (t.grp c.key).study, replay := none, age := (t.grp c.key).age }) ∧
  (∀ s c n, Ready s c → Goes s c (active c none) { wait := true } →
    (∀ e ∈ s.groups, e.2.study.phase ≠ 2 ∧ ∀ w ∈ e.2.lanes.waits, Wait.yields w.1 = false) →
    n = s.groups.countP (fun e => e.1 / 32 == c.key / 32 && e.1 != c.key && s.readies.contains e.1) →
    ∃ t, exec .yield s = .next t ∧ Issued s t c { wait := true, waits := if n = 0 then [] else [(.yield n, BitVec.allOnes 64)] })

/-- R44, R45, R47: `reform` puts the lanes of the issue mask into bins of their next instruction, role and frame shape and takes them out of the group
(here when other lanes of the top frame stay); while the trap stack is not empty, or other lanes wait in a lower frame (R427), it does nothing. -/
def Obligations.ReformFillsBins : Prop :=
  (∀ s c, Ready s c → Goes s c (active c none) { wait := true } → (c.g.regs.traps ≠ [] ∨ c.g.lowerWaits c.mask = true) →
    ∃ t, exec .reform s = .next t ∧ Issued s t c { wait := true }) ∧
  (∀ s c, Ready s c → Goes s c (active c none) { wait := true } → c.g.regs.traps = [] → c.g.lowerWaits c.mask = false →
    c.g.mio.loads = [] → c.g.mio.fifo = [] → s.mxOf c.key = [] →
    c.g.running &&& ~~~ (c.mask ||| c.g.atRet ||| c.g.atRti) ≠ 0 → (∀ l, (c.g.bar l).issued = 0) → (s.core (coreOf c.key)).line = [] →
    ∃ t, exec .reform s = .next t ∧ (t.grp c.key).lanes.present = c.g.lanes.present &&& ~~~ c.mask ∧ FramesStay c.g.frames (t.grp c.key) ∧
      RegsAre (t.grp c.key) c.g.regs ∧ t.mem = s.mem ∧
      (∀ l, l < 64 → has c.mask l → ∃ b ∈ (t.team c.g.team).bins, b.pc = c.pc + 4 ∧ b.role = c.g.role ∧
        b.shape = c.g.frames.reverse.map (fun f => (f.nv, f.nm)) ∧ ∃ x ∈ b.lanes, x.1 = (c.g.lanes.tid.toList.getD l 0).toNat ∧ x.2.2 = l) ∧
      (∀ b ∈ (s.team c.g.team).bins, ∃ b' ∈ (t.team c.g.team).bins, b'.pc = b.pc ∧ b'.role = b.role ∧ b'.shape = b.shape ∧ ∀ x ∈ b.lanes, x ∈ b'.lanes))

/-- R191, R198: `trap` parks the group with its code, after publishing the interval of a guarded team; `suspect` and `probe` change no register. -/
def Obligations.TrapParksTheGroup : Prop :=
  (∀ code s c, Ready s c → Goes s c (active c none) { wait := true, ssrcs := [0, 1, 2, 3], sdsts := [0, 1] } → s.mxOf c.key = [] →
    ∃ t, exec (.trap code) s = .next t ∧ Beside s t c.key ∧ Parks c (t.grp c.key) (.trap code) ⟨0, c.mask, 0, 0⟩ c.mask 4 true ∧
      ((s.grid (s.team c.g.team).grid).guarded = true → (t.team c.g.team).guard.published = true)) ∧
  (∀ code s c, Ready s c → Goes s c (active c none) { wait := true } → ∃ t, exec (.suspect code) s = .next t ∧ Issued s t c { wait := true }) ∧
  (∀ tag sa s c, Ready s c → Goes s c (active c none) { ssrcs := [sa.val] } → ∃ t, exec (.probe tag sa) s = .next t ∧ Issued s t c {})

/-- R195, R196, R400, R420: `brk` enters the handler of vector entry 0 in privileged mode and returns to the
next instruction; without a handler the group parks, with kind 0, address 0 and aux 0 in its record (the
model's choice: LOG 29, since R400 gives `brk` no kind); with four entries on the trap stack, or at depth 31,
it escalates. While the entry lies across a link that carries nothing it waits (R462). -/
def Obligations.BrkEntersTheHandler : Prop :=
  ∀ code s c, Ready s c → Goes s c (active c none) { wait := true } → s.mxOf c.key = [] →
    (s.vectorHeld (s.gridOf c.g).vf 0 = true → exec (.brk code) s = .next s) ∧ (s.vectorHeld (s.gridOf c.g).vf 0 = false →
    (∀ v : W64 × Nat × Nat, s.vector (s.gridOf c.g).vf 0 = some v → c.g.regs.traps.length < 4 → c.g.fdepth < 31 → RowsFree s c (v.2.1 + 16 * v.2.2) →
      ∃ t, exec (.brk code) s = .next t ∧ BesideVector s t c 0 ∧ Entered c (t.grp c.key) c.mask (c.pc + 4) code c.pc none ∧
        Pushed c.g (t.grp c.key) v.2.1 (16 * v.2.2) 0 c.mask (c.pc + 4) v.1 true) ∧
    (s.vector (s.gridOf c.g).vf 0 = none →
      ∃ t, exec (.brk code) s = .next t ∧ BesideVector s t c 0 ∧ Parks c (t.grp c.key) (.brk code) ⟨0, c.mask, 0, 0⟩ c.mask 4 true) ∧
    (∀ v : W64 × Nat × Nat, s.vector (s.gridOf c.g).vf 0 = some v → 4 ≤ c.g.regs.traps.length ∨ 31 ≤ c.g.fdepth → c.g.regs.escalated = false →
      ∃ t p, exec (.brk code) s = .next t ∧ BesideVector s t c 0 ∧ (t.grp c.key).park = some p ∧ p.why = .escal 0xFFFF ∧
        p.flt = ⟨0x050C, c.mask, 0, BitVec.ofNat 64 (0xFFFF + code.toNat * 65536)⟩ ∧ p.mask = c.mask ∧ p.pc = c.pc ∧ p.sent = false ∧
        RegsAre (t.grp c.key) { c.g.regs with escalated := true } ∧ FramesStay c.g.frames (t.grp c.key)))

/-- R111, R133, R399, R400: an illegal encoding and a failed fetch take a precise fault: the handler of the
cause's vector entry is entered in privileged mode, with the kind in %trapcode and the fault's address in
%trapval, to return to the same instruction; without a handler the group parks. That a failed fetch keeps the
length 4 is the model's choice (LOG 30). -/
def Obligations.FaultsEnterTheHandler : Prop :=
  (∀ kind word s c, Ready s c → kind < 65536 → kind ≠ 0x0701 → kind ≠ 0x0D01 → kind ≠ 0x0D03 → kind ≠ 0x0D05 →
    Faults s c (.illegalInstruction kind word) ⟨kind, c.mask, 0, BitVec.ofNat 64 word.toNat⟩ (if word.getLsbD 0 then 4 else 2)) ∧
  (∀ s c f, Ready s c → s.fetchFlt c = some f → f.kind ≠ 0x0701 → f.kind ≠ 0x0D01 → Faults s c .fetchFault f 4)

/-- R197, R399, R418: `rti` pops the handler frame and its trap-stack entry and restores mode, %trapcode and %trapval; after `brk` the lanes resume at their
return points; a fault entry retries, skips its instruction or aborts, by the answer that the handler wrote. -/
def Obligations.RtiRestoresTheEntry : Prop :=
  ∀ s c f u e, Ready s c → Goes s c (active c none) { wait := true } → c.g.regs.mode = true → c.g.frames = f :: u :: c.g.frames.tail.tail →
    f.handler = true → c.g.regs.traps = e :: c.g.regs.traps.tail → u.spilled = false → EndsFrame c c.g.atRti → f.k = 0 →
    s.flying c.key c.g.fdepth = false → (s.core (coreOf c.key)).line = [] →
    ∃ t, exec .rti s = .next t ∧ Beside s t c.key ∧ FramesStay (u :: c.g.frames.tail.tail) (t.grp c.key) ∧
      (t.grp c.key).regs = { c.g.regs with traps := c.g.regs.traps.tail, mode := e.mode, trapcode := e.code, trapval := e.val, escalated := false,
                                           valid := 0, count := 0 } ∧
      (∀ l, l < 64 → has e.mask l → pcOf (t.grp c.key).lanes.pc l = pcOf e.pcs l +
        (match e.flt with
         | some x => if e.wrote = true ∧ bits c.g.regs.trapval 62 2 = 1 then BitVec.ofNat 64 x.2.2 else 0
         | none => 0)) ∧
      ((t.grp c.key).park = none ↔ ¬ (e.flt.isSome = true ∧ e.wrote = true ∧ 2 ≤ bits c.g.regs.trapval 62 2))

/-- R135: `rti`, and reads and writes of the privileged special registers, fault in unprivileged mode. -/
def Obligations.PrivilegeFaults : Prop :=
  (∀ s c, Ready s c → c.g.regs.mode = false → s.hazard c.key c.mask { wait := true } = false → c.g.endsFrame c.mask = false →
    Faults s c .rti ⟨0x0201, c.mask, 0, 0x4F5⟩ 4) ∧
  (∀ (r : SpReg) (sd : SReg) s c, Ready s c → c.g.regs.mode = false → (r = .studied ∨ r = .part ∨ r = .vf) →
    s.hazard c.key c.mask { sdsts := [sd.val] } = false → ∃ w, Faults s c (.gsr r sd) ⟨0x0202, c.mask, BitVec.ofNat 64 r.code, w⟩ 4) ∧
  (∀ nw (r : SpReg) (d : VReg) s c, Ready s c → c.g.regs.mode = false → (r = .studied ∨ r = .part ∨ r = .vf) →
    s.hazard c.key c.mask { dsts := [(d.val, 1)], nw := nw } = false → ∃ w, Faults s c (.gsrv nw r d) ⟨0x0202, c.mask, BitVec.ofNat 64 r.code, w⟩ 4) ∧
  (∀ (r : SpReg) (r1 : SReg) s c, Ready s c → c.g.regs.mode = false → (r = .srseed ∨ r = .trapcode ∨ r = .trapval) →
    s.hazard c.key c.mask { ssrcs := [r1.val] } = false → ∃ w, Faults s c (.ssr r r1) ⟨0x0203, c.mask, BitVec.ofNat 64 r.code, w⟩ 4)

/-! ## Narrow conversions, special registers -/

/-- R161, R162, R163, R105: narrow conversions. With stochastic rounding `cvtn.pk` draws the words of every lane and element from its pipe's generator
and steps it sixteen times. -/
def Obligations.NarrowConversionResults : Prop :=
  (∀ f : V2, (Instr.cvtnPk f).wf = true → ∀ s c, Ready s c →
    Goes s c (active c f.g) { srcs := [(f.a, 4), (f.b, 1)], dsts := [(f.d.val, 1)], nw := f.nw, val := wordFault c.g (active c f.g) f.b FmtWord.valid } →
    ∃ (t u : State) (v : Nat → W32) (p : Nat), exec (.cvtnPk f) s = .next t ∧ p < 2 ∧
      Issued s u c { act := active c f.g, rows := [(f.d.val, v)], nw := f.nw } ∧
      (∀ l, l < 64 → has (active c f.g) l → v l = packLane (word c f.b l) (fun e => lane (c.g.srcAt f.a e) l)
        fun e => genWord ((s.core (coreOf c.key)).gen (2 * (slotOf c.key / 32) + p)) e l) ∧
      ((∀ l, l < 64 → has (active c f.g) l → FmtWord.rnd ⟨(word c f.b l).toNat⟩ ≠ 2) → t = u) ∧
      ((∃ l, l < 64 ∧ has (active c f.g) l ∧ FmtWord.rnd ⟨(word c f.b l).toNat⟩ = 2) →
        t = { u.setCore (coreOf c.key) { u.core (coreOf c.key) with
          gens := put (u.core (coreOf c.key)).gens (2 * (slotOf c.key / 32) + p) (genSteps 16 ((s.core (coreOf c.key)).gen (2 * (slotOf c.key / 32) + p))) }
          with fresh := u.fresh + 1 })) ∧
  (∀ f : V2, (Instr.cvtnUnpk f).wf = true → ∀ s c, Ready s c →
    Goes s c (active c f.g) { srcs := [(f.a, 1), (f.b, 1)], dsts := [(f.d.val, 4)], nw := f.nw, val := wordFault c.g (active c f.g) f.b FmtWord.valid } →
    ∃ (t : State) (v : Nat → Nat → W32), exec (.cvtnUnpk f) s = .next t ∧
      Issued s t c { act := active c f.g, rows := (List.range 4).map fun e => (f.d.val + e, v e), nw := f.nw } ∧
      ∀ e l, e < 4 → l < 64 → has (active c f.g) l → v e l = unpackLane (word c f.b l) (word c f.a l) e) ∧
  (∀ f : V2, (Instr.cvtnBscale f).wf = true → ∀ s c, Ready s c →
    Goes s c (active c f.g) { srcs := [(f.a, 4), (f.b, 1)], dsts := [(f.d.val, 1)], nw := f.nw
                              val := wordFault c.g (active c f.g) f.b fun w => w.valid && w.scl != 0 } →
    ∃ (t : State) (v : Nat → W32), exec (.cvtnBscale f) s = .next t ∧
      Issued s t c { act := active c f.g, rows := [(f.d.val, v)], nw := f.nw } ∧
      ∀ l, l < 64 → has (active c f.g) l → v l = bscaleLane (word c f.b l) fun e => lane (c.g.srcAt f.a e) l)

/-- R199, R200, R202, R203: `gsr` and `gsrv` read the special registers, `clk` and `lclk` the cycle and event counters, `spool` the base of a pool entry. -/
def Obligations.SpecialRegisterReads : Prop :=
  (∀ r sd, Then (.gsr r sd) none (fun _ _ => { sdsts := [sd.val] }) (fun _ c => c.g.regs.mode = true ∨ (r ≠ .studied ∧ r ≠ .part ∧ r ≠ .vf)) (fun s c =>
      { sc := some (sd.val, BitVec.ofNat 64 (s.special c.key r (lowestOf c.mask))) }) fun s c u t =>
    t = u ∧ SpecialIs s c r (lowestOf c.mask) (s.special c.key r (lowestOf c.mask))) ∧
  (∀ nw r (d : VReg), Then (.gsrv nw r d) none (fun _ _ => { dsts := [(d.val, 1)], nw := nw })
      (fun _ c => c.g.regs.mode = true ∨ (r ≠ .studied ∧ r ≠ .part ∧ r ≠ .vf)) (fun s c =>
      { act := c.mask, rows := [(d.val, fun l => BitVec.ofNat 32 (s.special c.key r l))], nw := nw }) fun s c u t =>
    t = u ∧ ∀ l, l < 64 → has c.mask l → SpecialIs s c r l (s.special c.key r l)) ∧
  (∀ (sd : SReg) s c, Ready s c → Goes s c (active c none) { sdsts := [sd.val] } →
    ∃ (t u : State) (v : W64), exec (.clk sd) s = .next t ∧ Issued s u c { sc := some (sd.val, v) } ∧
      t = { u.setCore (coreOf c.key) { u.core (coreOf c.key) with clk := v } with fresh := u.fresh + 1 }) ∧
  (∀ sd, Then (.lclk sd) none (fun _ _ => { sdsts := [sd.val] }) (fun _ _ => True)
    (fun s c => { sc := some (sd.val, (s.die (dieOf (coreOf c.key))).count + 1) }) fun s c u t =>
      t = u.setDie (dieOf (coreOf c.key)) { u.die (dieOf (coreOf c.key)) with count := (s.die (dieOf (coreOf c.key))).count + 1 }) ∧
  (∀ (e : BitVec 8) sd, Then (.spool e sd) none (fun _ _ => { sdsts := [sd.val] }) (fun s c => e.toNat < (s.gridOf c.g).poolCount)
    (fun s c => { sc := some (sd.val, BitVec.ofNat 64 (fieldAt ((s.gridOf c.g).poolEntry e.toNat) 8 8)) }) fun _ _ u t => t = u)

/-- R108, R201, R418, R448, R449: `ssr` writes %xqsel, %srseed with the eight generators, and the trap
registers of the newest trap-stack entry; with an empty trap stack these stay (the model's choice: LOG 61).
`bound` sets or turns off a bound register from its card in the scratchpad. -/
def Obligations.SpecialRegisterWrites : Prop :=
  (∀ r r1, Then (.ssr r r1) none (fun _ _ => { ssrcs := [r1.val] }) (fun _ c => c.g.regs.mode = true ∨ r = .xqsel) (fun _ _ => {}) fun _ c u t =>
    match r with
    | .xqsel => RegsBecome c u t fun x => { x with xqsel := (c.g.s r1).setWidth 2 }
    | .srseed => t = u.setCore (coreOf c.key) { u.core (coreOf c.key) with
        seed := loW (c.g.s r1), gens := (List.range 8).map fun j => (j, genSeed (loW (c.g.s r1)) j) }
    | .trapcode => RegsBecome c u t fun x => if x.traps = [] then x else { x with trapcode := (c.g.s r1).setWidth 16 }
    | .trapval => RegsBecome c u t fun x => match x.traps with
        | [] => x
        | e :: rest => { x with trapval := c.g.s r1, traps := { e with wrote := true } :: rest }
    | _ => True) ∧
  (∀ (b : Fin 64) r1, Then (.bound b r1) none (fun _ c => { ssrcs := [r1.val], stall := c.g.readsOpen })
    (fun s c => c.g.mio.fifo = [] ∧ (c.g.s r1).toNat % 32 = 0 ∧ (c.g.s r1).toNat + 32 ≤ (s.gridOf c.g).alloc ∧
      bdBad ((s.team c.g.team).scr.readN (c.g.s r1).toNat 32) = false ∧
      ((get {} (s.grid c.g.grid).bds b.val).act ≠ 1 ∨ (get {} (s.grid c.g.grid).bds b.val).count = 0))
    (fun _ _ => {}) fun s c u t =>
      let card := (s.team c.g.team).scr.readN (c.g.s r1).toNat 32
      (∀ d, t.die d = { u.die d with count := (t.die d).count }) ∧ t = { u with dies := t.dies }.setGrid c.g.grid { u.grid c.g.grid with
        bds := if fieldAt card 8 8 = 0 then drop (u.grid c.g.grid).bds b.val
          else put (u.grid c.g.grid).bds b.val { base := fieldAt card 0 8, len := fieldAt card 8 8, lo := BitVec.ofNat 32 (fieldAt card 16 4)
                                                 hi := BitVec.ofNat 32 (fieldAt card 20 4), fmt := fieldAt card 24 1, act := fieldAt card 25 1, count := 0 } })

/-! ## Memory instructions -/

/-- R211, R213, R214, R216, R217, R218, R262: every load enters the memory system with its lanes' addresses, and its rows land later (R39); when its core takes its
requests only later, its lanes wait for that (R209). -/
def Obligations.LoadsEnterTheMemorySystem : Prop :=
  (∀ x ∈ mLoads, ∀ f : ML, LoadEnters (x.1 f) f.g [(f.va, 1)] [f.s.val] false x.2.2 f.v x.2.1 .gen none (sumAddr f.s f.va)) ∧
  (∀ f : MLl, LoadEnters (.ldl32 f) f.g [] [f.s.val] false false f.v 4 .gen none (stepAddr f.s f.imm)) ∧
  (∀ x ∈ ([(.lds32, 4), (.lds64, 8), (.lds128, 16)] : List ((XLds → Instr) × Nat)), ∀ f,
    LoadEnters (x.1 f) f.g [(f.o, 1)] [] f.nw false f.d x.2 .off none fun c l => (word c f.o l).setWidth 64) ∧
  (∀ x ∈ ([(.ldAcq32, 4), (.ldAcq64, 8)] : List ((XAcq → Instr) × Nat)), ∀ f,
    LoadEnters (x.1 f) none [(f.a, 2)] [] f.nw false f.d x.2 .gen (some f.c) fun c l => pair c f.a l) ∧
  (∀ f : MXm, Enters (.mld f) none (fun _ => { srcs := [(f.a, 2)], mdsts := [(16 * f.dq.val, 16)] })
    (fun _ c => laneReqs (active c none) 64 0 .gen fun l => pair c f.a l) (fun _ _ _ => True)
    (fun s c accs => { wait := true, mio := withLoad c (active c none) (.mrows (16 * f.dq.val)) accs none
                       waits := askWait s c c.mask c.g.mio.seq accs.length }) fun _ _ => false) ∧
  (∀ x ∈ ([(.ldw32, 4), (.ldw64, 8)] : List ((XLdw → Instr) × Nat)), ∀ f, Enters (x.1 f) none
    (fun _ => { srcs := [(f.o, 1)], dsts := [(f.d.val, x.2 / 4)], nw := f.nw })
    (fun s c => (lanesOf (active c none)).map fun l => winReq (s.gridOf c.g) f.w.val x.2 l (word c f.o l).toNat)
    (fun s c _ => (s.gridOf c.g).winBound f.w.val = true ∧
      ∀ l, l < 64 → has c.mask l → (word c f.o l).toNat + x.2 ≤ (s.gridOf c.g).winSize f.w.val)
    (fun s c accs => { wait := true, mio := withLoad c (active c none) (if f.nw then .none else .rows false f.d.val (x.2 / 4)) accs none
                       waits := askWait s c c.mask c.g.mio.seq accs.length }) fun _ _ => false) ∧
  (∀ f : XSldw, Enters (.sldw f) none (fun _ => { ssrcs := [f.o.val], sdsts := [f.d.val] })
    (fun s c => (lanesOf (active c none)).map fun l => winReq (s.gridOf c.g) f.w.val 8 l (c.g.s f.o).toNat)
    (fun s c _ => (s.gridOf c.g).winBound f.w.val = true ∧ (c.g.s f.o).toNat + 8 ≤ (s.gridOf c.g).winSize f.w.val)
    (fun s c accs => { wait := true, mio := withLoad c (active c none) (.scalar f.d.val) (accs.take 1) none, waits := askWait s c c.mask c.g.mio.seq 1 })
    fun _ _ => false)

/-- R66, R211, R213, R214, R218, R219, R262, R289: every store enters the store FIFO with its lanes' addresses
and bytes; a release store has a release before it and one after it (the one after it is the model's reading
of R289: LOG 132). -/
def Obligations.StoresEnterTheFifo : Prop :=
  (∀ x ∈ mStores, ∀ f : MS, StoreEnters (x.1 f) f.g [(f.va, 1)] [f.s.val] f.v x.2 .gen none (sumAddr f.s f.va)) ∧
  (∀ f : MLs, StoreEnters (.stl32 f) f.g [] [f.s.val] f.v 4 .gen none (stepAddr f.s f.imm)) ∧
  (∀ x ∈ ([(.sts32, 4), (.sts64, 8), (.sts128, 16)] : List ((XSts → Instr) × Nat)), ∀ f,
    StoreEnters (x.1 f) f.g [(f.o, 1)] [] f.d x.2 .off none fun c l => (word c f.o l).setWidth 64) ∧
  (∀ x ∈ ([(.stRel32, 4), (.stRel64, 8)] : List ((XRel → Instr) × Nat)), ∀ f,
    StoreEnters (x.1 f) none [(f.a, 2)] [] f.d x.2 .gen (some f.c) fun c l => pair c f.a l) ∧
  (∀ f : MXm, Enters (.mst f) none (fun _ => { srcs := [(f.a, 2)], msrcs := [(16 * f.dq.val, 16)] })
    (fun _ c => laneReqs (active c none) 64 1 .gen fun l => pair c f.a l)
    (fun s c accs => FifoRoom c ∧ (s.grid c.g.grid).bdHits (accs.map fun a => (a, mBytes c.g f.dq.val a.lane)) = [])
    (fun _ c accs => { mio := withFifo c [(.store (accs.map fun a => (a, mBytes c.g f.dq.val a.lane)), c.pc, c.mask,
      (List.range 16).map fun e => (c.g.fdepth, 64 + 16 * f.dq.val + e))] }) outside) ∧
  (∀ (g : Group) v l, leNat (rowBytes g v 1 l) = (lane (g.src v) l).toNat % 2 ^ 8 ∧ leNat (rowBytes g v 2 l) = (lane (g.src v) l).toNat % 2 ^ 16 ∧
    leNat (rowBytes g v 4 l) = (lane (g.src v) l).toNat ∧ leNat (rowBytes g v 8 l) = (g.pairAt v l).toNat ∧
    rowBytes g v 16 l = rowBytes g v 8 l ++ rowBytes g (srcNext v 2) 8 l) ∧
  (∀ (g : Group) dq l e, e < 16 → ((mBytes g dq l).drop (4 * e)).take 4 = leBytes 4 (lane (g.mrow (16 * dq + e)).w l).toNat)

/-- R220 to R223: each `atom`, with and without `.ar`, and each `red` enters the store FIFO with its lanes' addresses and operands; when its core takes its
requests only later, its lanes wait for that (R209). -/
def Obligations.AtomicsEnterTheFifo : Prop :=
  (∀ x ∈ atomInstrs, ∀ f, AtomEnters (x.1 f) f.a (.row f.d) x.2.1 x.2.2.1 (some f.d) f.c x.2.2.2) ∧
  (∀ x ∈ redInstrs, ∀ f, AtomEnters (x.1 f) f.a f.d x.2.1 x.2.2 none f.c false)

/-- R212, R414, R452: `pf` brings the lines of its lanes' addresses into the L1 (said for one active lane: the
line of a later lane may evict it, R68), and has no effect beside the caches; that a `pf` of a row beyond the
frame does nothing is the model's choice (LOG 24); `poison` enters one line per lane in the store FIFO,
whatever the alignment of the address. -/
def Obligations.PrefetchAndPoison : Prop :=
  (∀ f : MP, Then (.pf f) f.g (fun _ c => { srcs := [(f.va, 1)], ssrcs := [f.s.val], skip := true, own := c.g.poisonFault (active c f.g) [(f.va, 1)] [] [f.s.val] })
    (fun _ _ => True) (fun _ _ => {}) fun s c u t => Caches u t ∧
      ((∃ r : VReg, f.va = .row r ∧ c.g.top.nv ≤ r.val) → t = u) ∧
      ((∀ r : VReg, f.va = .row r → r.val < c.g.top.nv) → ∀ l pa va n, l < 64 → active c f.g = BitVec.ofNat 64 (2 ^ l) →
        s.check c.g (coreOf c.key) { lane := 0, va := (sumAddr f.s f.va c l).toNat, n := 1, align := 1, acc := 0 } = .ok ⟨0, va, .dev pa false, n⟩ →
        (get {} (t.core (l1Core (s.gridOf c.g).fused (coreOf c.key) (lineKey false pa))).l1 (lineKey false pa)).valid (pa % 128) = true)) ∧
  (∀ a g, Enters (.poison a g) g (fun _ => { srcs := [(a, 2)] })
    (fun _ c => (lanesOf (active c g)).map fun l => { lane := l, va := (pair c a l).toNat, n := 128, align := 1, acc := 1, form := .poison })
    (fun _ c _ => FifoRoom c) (fun _ c accs => { mio := if active c g = 0 then id else withFifo c [(.poison accs, c.pc, c.mask, [])] }) outside)

/-- R205, R411, R414, R445: an access that fails its checks makes every load, window read, store, `poison` and atomic a precise fault of the kind that
fails first, and a window that is not bound one of kind 0x0608; a failed translation parks the group whatever handlers there are. `sldw` makes its
access once per issue: that its fault names every lane of the issue mask is the model's choice (LOG 39). -/
def Obligations.FailedAccessesFault : Prop :=
  (∀ x ∈ mLoads, ∀ f : ML, LoadFaults (x.1 f) f.g [(f.va, 1)] [f.s.val] false f.v x.2.1 .gen (sumAddr f.s f.va)) ∧
  (∀ f : MLl, LoadFaults (.ldl32 f) f.g [] [f.s.val] false f.v 4 .gen (stepAddr f.s f.imm)) ∧
  (∀ x ∈ ([(.lds32, 4), (.lds64, 8), (.lds128, 16)] : List ((XLds → Instr) × Nat)), ∀ f,
    LoadFaults (x.1 f) f.g [(f.o, 1)] [] f.nw f.d x.2 .off fun c l => (word c f.o l).setWidth 64) ∧
  (∀ x ∈ ([(.ldAcq32, 4), (.ldAcq64, 8)] : List ((XAcq → Instr) × Nat)), ∀ f,
    LoadFaults (x.1 f) none [(f.a, 2)] [] f.nw f.d x.2 .gen fun c l => pair c f.a l) ∧
  (∀ f : MXm, FailsFault (.mld f) none (fun _ => { srcs := [(f.a, 2)], mdsts := [(16 * f.dq.val, 16)] })
    (fun _ c => laneReqs (active c none) 64 0 .gen fun l => pair c f.a l) Always) ∧
  (∀ x ∈ ([(.ldw32, 4), (.ldw64, 8)] : List ((XLdw → Instr) × Nat)), ∀ f, FailsFault (x.1 f) none
    (fun _ => { srcs := [(f.o, 1)], dsts := [(f.d.val, x.2 / 4)], nw := f.nw })
    (fun s c => (lanesOf (active c none)).map fun l => winReq (s.gridOf c.g) f.w.val x.2 l (word c f.o l).toNat)
    fun s c => (s.gridOf c.g).winBound f.w.val = true) ∧
  (∀ x ∈ ([(.ldw32, 4), (.ldw64, 8)] : List ((XLdw → Instr) × Nat)), ∀ f s c, (x.1 f).wf = true → Ready s c → c.mask ≠ 0 →
    Goes s c (active c none) { srcs := [(f.o, 1)], dsts := [(f.d.val, x.2 / 4)], nw := f.nw } →
    (s.gridOf c.g).winBound f.w.val = false → Faults s c (x.1 f) ⟨0x0608, c.mask, BitVec.ofNat 64 f.w.val, BitVec.ofNat 64 x.2⟩ 4) ∧
  (∀ f : XSldw, FailsFault (.sldw f) none (fun _ => { ssrcs := [f.o.val], sdsts := [f.d.val] })
    (fun s c => (lanesOf (active c none)).map fun l => winReq (s.gridOf c.g) f.w.val 8 l (c.g.s f.o).toNat)
    fun s c => (s.gridOf c.g).winBound f.w.val = true) ∧
  (∀ x ∈ mStores, ∀ f : MS, StoreFaults (x.1 f) f.g [(f.va, 1)] [f.s.val] f.v x.2 .gen (sumAddr f.s f.va)) ∧
  (∀ f : MLs, StoreFaults (.stl32 f) f.g [] [f.s.val] f.v 4 .gen (stepAddr f.s f.imm)) ∧
  (∀ x ∈ ([(.sts32, 4), (.sts64, 8), (.sts128, 16)] : List ((XSts → Instr) × Nat)), ∀ f,
    StoreFaults (x.1 f) f.g [(f.o, 1)] [] f.d x.2 .off fun c l => (word c f.o l).setWidth 64) ∧
  (∀ x ∈ ([(.stRel32, 4), (.stRel64, 8)] : List ((XRel → Instr) × Nat)), ∀ f,
    StoreFaults (x.1 f) none [(f.a, 2)] [] f.d x.2 .gen fun c l => pair c f.a l) ∧
  (∀ f : MXm, FailsFault (.mst f) none (fun _ => { srcs := [(f.a, 2)], msrcs := [(16 * f.dq.val, 16)] })
    (fun _ c => laneReqs (active c none) 64 1 .gen fun l => pair c f.a l) fun _ c => FifoRoom c) ∧
  (∀ a g, FailsFault (.poison a g) g (fun _ => { srcs := [(a, 2)] })
    (fun _ c => (lanesOf (active c g)).map fun l => { lane := l, va := (pair c a l).toNat, n := 128, align := 1, acc := 1, form := .poison }) fun _ c => FifoRoom c) ∧
  (∀ x ∈ atomInstrs, ∀ f, AtomFaults (x.1 f) f.a (.row f.d) x.2.1 x.2.2.1 (some f.d)) ∧
  (∀ x ∈ redInstrs, ∀ f, AtomFaults (x.1 f) f.a f.d x.2.1 x.2.2 none) ∧
  (∀ (s : State) g core l va n acc, va < 2 ^ 47 → va % n ≠ 0 → 1 < n →
    s.checkAll g core [{ lane := l, va := va, n := n, align := n, acc := acc }] =
      .error ⟨0x0604, BitVec.ofNat 64 (2 ^ l), BitVec.ofNat 64 va, BitVec.ofNat 64 (n + acc * 256)⟩) ∧
  (∀ (s : State) g core l va n acc, 2 ^ 47 ≤ va → va < 2 ^ 64 - 2 ^ 47 →
    s.checkAll g core [{ lane := l, va := va, n := n, align := n, acc := acc }] =
      .error ⟨0x0601, BitVec.ofNat 64 (2 ^ l), BitVec.ofNat 64 va, BitVec.ofNat 64 (n + acc * 256)⟩)

/-! ## Synchronisation -/

/-- R219, R224: `fence.rel` enters a release in the store FIFO; `fence.acq` and `fence` stall until the loads and atomics before them have landed, then acquire, and
`fence` releases first, which at `.grp` is complete at once. R71, R219: an acquire at `.die` drops the clean bytes of the L1s that the group's accesses use, at `.pkg` also those of device lines
among the die's visitor lines, at `.sys` of all of them; at `.grp` and `.team` it does nothing, at `.suite` nothing when the suite's L1s are fused. It changes
no memory. -/
def Obligations.FencesAndAcquires : Prop :=
  (∀ sc, Enters (.fenceRel sc) none (fun _ => {}) (fun _ _ => []) (fun _ _ _ => True) (fun _ c _ => { mio := withFifo c [marker sc .none] }) fun _ _ => Scope.wide sc) ∧
  (∀ sc, Then (.fenceAcq sc) none (fun _ c => { stall := c.g.awaits }) (fun _ _ => True) (fun _ _ => {}) fun _ c u t => t = u.acquireBy c.key sc) ∧
  (∀ sc, Then (.fence sc) none (fun _ c => { stall := c.g.awaits || (sc != .grp && c.g.mio.fifo != []) }) (fun _ _ => True) (fun _ _ => {}) fun s c u t =>
    t = (u.release (coreOf c.key) (s.gridOf c.g).fused sc).acquireBy c.key sc ∧ (Scope.wide sc = true → Publishes s t c)) ∧
  (∀ sc s c, Ready s c → c.g.awaits = true → exec (.fenceAcq sc) s = .next s ∧ exec (.fence sc) s = .next s) ∧
  (∀ (s : State) c fused, s.acquire c fused .grp = s ∧ s.acquire c fused .team = s ∧ s.acquire c true .suite = s ∧
    s.acquire c false .suite = s.acquire c false .die) ∧
  (∀ (s : State) c fused sc, (∀ j, LinesOnce (s.core j).l1) → (sc = .die ∨ sc = .pkg ∨ sc = .sys) → ∀ j,
    (j ∈ l1Cores fused c → ∀ k, OnlyDirty (get {} (s.core j).l1 k) (get {} ((s.acquire c fused sc).core j).l1 k)) ∧
    (j ∉ l1Cores fused c → (s.acquire c fused sc).core j = s.core j)) ∧
  (∀ (s : State) c fused sc, LinesOnce (s.die (dieOf c)).visitors → ∀ k,
    (sc = .sys ∨ (sc = .pkg ∧ lineHost k = false) → OnlyDirty (get {} (s.die (dieOf c)).visitors k) (get {} ((s.acquire c fused sc).die (dieOf c)).visitors k)) ∧
    (sc = .die ∨ (sc = .pkg ∧ lineHost k = true) → get {} ((s.acquire c fused sc).die (dieOf c)).visitors k = get {} (s.die (dieOf c)).visitors k)) ∧
  (∀ (s : State) c fused sc, (s.acquire c fused sc).mem = s.mem)

/-- R225 to R227: a barrier instruction makes its lanes wait, and the group arrives when every lane of its top frame has issued it; `bar.wt` goes on at
once when the phase that it waits for is over, and otherwise waits with its acquire open (where that of `bar` stands in the program order is the model's
choice: LOG 145). -/
def Obligations.BarrierResults : Prop :=
  (∀ l, BarIssues (.bar l) l (fun _ _ => True) (.bar l)) ∧
  (∀ l, BarIssues (.barArr l) l (fun s c => ¬ ((s.gridOf c.g).guarded = true ∧ l = .team)) (.barArr l)) ∧
  BarIssues (.barArr .team) .team (fun s c => (s.gridOf c.g).guarded = true) (.bar .team) ∧
  BarIssues (.barWt .team) .team (fun s c => (s.gridOf c.g).guarded = true) (.bar .team) ∧
  (∀ l, Then (.barWt l) none (fun _ _ => { wait := true })
    (fun s c => ¬ ((s.gridOf c.g).guarded = true ∧ l = .team) ∧ (l = .die → (s.gridOf c.g).attr 3 = true) ∧ (l = .grid → (s.gridOf c.g).attr 4 = true))
    (fun s c => match (c.g.bar l).memo with
      | some p => if p < (s.barUnit c.g.grid l (s.barInst c.g.team l)).phase
          then { wait := true, mio := fun m => { m with bars := put m.bars (levelNum l) { c.g.bar l with memo := none } } }
          else { wait := true, waits := [(.barWt l, c.mask)], mio := withAcq c (.barWt l) }
      | none => { wait := true })
    fun s c u t => t = match (c.g.bar l).memo with
      | some p => if p < (s.barUnit c.g.grid l (s.barInst c.g.team l)).phase then u.acquireBy c.key (levelScope l) else u
      | none => u.acquireBy c.key (levelScope l))

/-- R228 to R231: `sem.set` and `sem.add` enter a release that carries the operation; `sem.wait` goes on when
the semaphore has reached S(s) and otherwise waits; `hpush` enters a release that carries the handle and
waits, in the hatch's line when it finds the hatch full or others there (that it joins the line as it issues
is the model's choice: LOG 108); `hpop` takes the oldest handle or waits; `hpeek` reads it, or all ones. -/
def Obligations.SemaphoreAndHatchResults : Prop :=
  (∀ f : XSem, Enters (.semSet f) none (fun _ => { ssrcs := [f.s.val] }) (fun _ _ => []) (fun s c _ => f.k.val < (s.gridOf c.g).nsem)
    (fun _ c _ => { mio := withFifo c [marker f.c (.sem true f.k.val (c.g.s f.s))] }) fun _ _ => Scope.wide f.c) ∧
  (∀ f : XSem, Enters (.semAdd f) none (fun _ => { ssrcs := [f.s.val] }) (fun _ _ => []) (fun s c _ => f.k.val < (s.gridOf c.g).nsem)
    (fun _ c _ => { mio := withFifo c [marker f.c (.sem false f.k.val (c.g.s f.s))] }) fun _ _ => Scope.wide f.c) ∧
  (∀ r1 (k : Fin 64), Then (.semWait r1 k) none (fun _ _ => { ssrcs := [r1.val], wait := true }) (fun s c => k.val < (s.gridOf c.g).nsem)
    (fun s c => if (c.g.s r1).toNat ≤ (s.sem (s.team c.g.team) k.val).toNat then { wait := true }
      else { wait := true, waits := [(.sem k.val (c.g.s r1), c.mask)], mio := withAcq c (.sem k.val (c.g.s r1)) })
    fun _ _ u t => t = u) ∧
  (∀ f : XHatch, Then (.hpush f) none (fun _ _ => { ssrcs := [f.s.val], wait := true }) (fun s c => s.hatchSlots c.g.team f.h.val ≠ 0)
    (fun _ c => { wait := true, waits := [(.hpush f.h.val, c.mask)], mio := withFifo c [marker .team (.hpush f.h.val (loW (c.g.s f.s)) c.mask)] })
    fun s c u t =>
      let tm := s.team c.g.team
      t = if s.hatchSlots c.g.team f.h.val ≤ (tm.handles f.h.val).length ∨ (∃ x ∈ tm.pushers, x.1 = f.h.val)
        then u.setTeam c.g.team { u.team c.g.team with pushers := (u.team c.g.team).pushers ++ [(f.h.val, c.key, loW (c.g.s f.s), c.mask, false)] } else u) ∧
  (∀ f : XHatch, ∀ v rest, Then (.hpop f) none (fun _ _ => { sdsts := [f.s.val], wait := true })
    (fun s c => s.hatchSlots c.g.team f.h.val ≠ 0 ∧ (s.team c.g.team).handles f.h.val = v :: rest ∧ (s.team c.g.team).headPx f.h.val = false ∧
      (∀ x ∈ (s.team c.g.team).poppers, x.1 ≠ f.h.val) ∧ ∀ x ∈ (s.team c.g.team).pushers, x.1 ≠ f.h.val)
    (fun _ c => { wait := true, sc := some (f.s.val, v.setWidth 64), mio := withAcq c (.hpop f.h.val (f.s.val + 32 * c.g.fdepth)) })
    fun _ c u t => t = u.setTeam c.g.team ((u.team c.g.team).popHandle f.h.val rest) ∧ (t.team c.g.team).handles f.h.val = rest) ∧
  (∀ f : XHatch, Then (.hpop f) none (fun _ _ => { sdsts := [f.s.val], wait := true })
    (fun s c => s.hatchSlots c.g.team f.h.val ≠ 0 ∧ (s.team c.g.team).handles f.h.val = [] ∧ ∀ x ∈ (s.team c.g.team).pushers, x.1 ≠ f.h.val)
    (fun _ c => { wait := true, waits := [(.hpop f.h.val (f.s.val + 32 * c.g.fdepth), c.mask)], mio := withAcq c (.hpop f.h.val (f.s.val + 32 * c.g.fdepth)) })
    fun _ c u t => t = u.setTeam c.g.team { u.team c.g.team with
      poppers := (u.team c.g.team).poppers ++ [(f.h.val, c.key, f.s.val + 32 * c.g.fdepth, c.mask)] }) ∧
  (∀ f : XHatch, Then (.hpeek f) none (fun _ _ => { sdsts := [f.s.val], wait := true })
    (fun s c => s.hatchSlots c.g.team f.h.val ≠ 0 ∧ (s.team c.g.team).headPx f.h.val = false)
    (fun s c => { wait := true, sc := some (f.s.val, match (s.team c.g.team).handles f.h.val with
      | v :: _ => v.setWidth 64
      | [] => BitVec.allOnes 64) }) fun _ _ u t => t = u)

/-! ## Engines, queues, launches, pantry, matrix -/

/-- R236, R237, R239: each `enq` enters the jobs of its lanes' cards in ascending order of lanes; a card that finds an entry within the quota becomes a job
with its predecessors, ready when it has none and no earlier store or atomic of the group to a byte of its ranges is still in the store FIFO (R242), and one
that finds none stalls the group. -/
def Obligations.EnqEntersJobs : Prop :=
  (∀ x ∈ ([(.enqCopy, 1), (.enqGather, 2), (.enqScatter, 3), (.enqFill, 4), (.enqColl, 5)] : List ((XEnq → Instr) × Nat)), ∀ f, Then (x.1 f) f.g (fun _ c => { srcs := [(f.o, 1)], stall := c.g.readsOpen })
    (fun s c => ∀ l, l < 64 → has (active c f.g) l → (word c f.o l).toNat % 128 = 0 ∧ (word c f.o l).toNat + 128 ≤ (s.gridOf c.g).alloc ∧
      s.cardBad c.g.team x.2 (s.scrCard c (word c f.o l).toNat 128) = none)
    (fun _ _ => {}) fun s c u t => t = u.enqCards c.key c.pc ((lanesOf (active c f.g)).map fun l => s.scrCard c (word c f.o l).toNat 128)) ∧
  (∀ (s : State) k pc card i, s.jobEntry (coreOf k) (s.gridOf (s.grp k)).vf = some i → (s.gridOf (s.grp k)).guarded = false →
    ∃ j, i < 64 ∧ get? (s.core (coreOf k)).jobs i = none ∧
      s.enqCards k pc [card] = (s.setCore (coreOf k) { s.core (coreOf k) with jobs := put (s.core (coreOf k)).jobs i j, born := (s.core (coreOf k)).born + 1 }).setGrp
        k { s.grp k with stall := none } ∧
      j.card = card ∧ j.team = (s.grp k).team ∧ j.grp = k ∧ j.pc = pc ∧ j.done = [] ∧ (j.st = if j.preds = [] ∧ s.jobHeld j = false then .ready else .waiting) ∧
      ∀ e, e ∈ j.preds ↔ ∃ x ∈ (s.core (coreOf k)).jobs, x.1 = e ∧ s.edge (s.grp k).team card x.2 = true) ∧
  (∀ (s : State) k pc card rest, s.jobEntry (coreOf k) (s.gridOf (s.grp k)).vf = none →
    s.enqCards k pc (card :: rest) = s.setGrp k { s.grp k with stall := some (.enq pc (card :: rest)) }) ∧
  (∀ (s : State) (j : Job) e items, (s.grp j.grp).live = true → (s.grp j.grp).team = j.team → (s.grp j.grp).mio.fifo = [e] → e.seq < j.seq → e.op = .store items →
    (∀ x ∈ items, x.1.va < 2 ^ 47 ∧ ∀ q off, x.1.tgt ≠ .scr q off) → (∀ o ∈ [16, 32, 48, 64], cd j.card o < 2 ^ 47) →
    (s.jobHeld j = true ↔ ∃ x ∈ items, ∃ o ∈ [16, 32, 48, 64], cd j.card (o + 8) ≠ 0 ∧ x.1.va < cd j.card o + cd j.card (o + 8) ∧ cd j.card o < x.1.va + x.1.n))

/-- R252, R303, R331, R332: `wpop` and `wpush` put the group to sleep at a work queue, `launch` and `rlnch` at the distributor, `dmark` at its new plane;
all but `wpop` begin a release and publish the interval. -/
def Obligations.QueueAndLaunchInstructions : Prop :=
  (∀ (f : XWq) s c q, Ready s c → Goes s c (active c none) { ssrcs := [f.q.val, f.o.val], wait := true } → (s.gridOf c.g).attr 6 = true →
    (c.g.s f.q).toNat ≤ 63 → s.wq (s.gridOf c.g).vf (c.g.s f.q).toNat = some q → (c.g.s f.o).toNat % 64 = 0 → (c.g.s f.o).toNat + 64 ≤ (s.gridOf c.g).alloc →
    (∃ t u, exec (.wpop f) s = .next t ∧ Issued s u c { wait := true, waits := [(.wq (c.g.s f.q).toNat, c.mask)], mio := fun m => { m with seq := m.seq + 1 } } ∧
      t = u.setWq (s.gridOf c.g).vf (c.g.s f.q).toNat { q with
        line := q.line ++ [{ grp := c.key, push := false, off := (c.g.s f.o).toNat, mask := c.mask, seq := c.g.mio.seq }] }) ∧
    (∃ t, exec (.wpush f) s = .next t ∧ Issued s t c {
      wait := true, waits := [(.wq (c.g.s f.q).toNat, c.mask)]
      mio := withFifo c [marker .sys (.wpush (c.g.s f.q).toNat (c.g.s f.o).toNat c.mask)] } ∧ Publishes s t c)) ∧
  (∀ (r1 : SReg) s c, Ready s c → Goes s c (active c none) { ssrcs := [r1.val], sdsts := [r1.val], stall := c.g.readsOpen } →
    ((c.g.s r1).toNat % 256 = 0 → (c.g.s r1).toNat + 256 ≤ (s.gridOf c.g).alloc →
      ∃ t, exec (.launch r1) s = .next t ∧ Publishes s t c ∧ Issued s t c {
        mio := withFifo c [marker .pkg .none]
        stall := some (.launch c.pc c.mask (s.cardBytes c (c.g.s r1).toNat 256) r1.val false (c.g.s r1)) }) ∧
    ((c.g.s r1).toNat % 64 = 0 → (c.g.s r1).toNat + 64 ≤ (s.gridOf c.g).alloc →
      ∃ t, exec (.rlnch r1) s = .next t ∧ Publishes s t c ∧ Issued s t c {
        mio := withFifo c [marker .pkg .none]
        stall := some (.launch c.pc c.mask (s.cardBytes c (c.g.s r1).toNat 64) r1.val true (c.g.s r1)) })) ∧
  (∀ s c, Ready s c → Goes s c (active c none) {} →
    ∃ t, exec .dmark s = .next t ∧ Publishes s t c ∧ Issued s t c { mio := withFifo c [marker .sys .none], stall := some .plane })

/-- R274, R277 to R279: a pantry instruction makes its lanes wait together for their answers; `pdep` begins a release that carries one deposit per lane,
`pcopy` and `ptake` send one request per lane to the slice of its pattern's tag. -/
def Obligations.PantryInstructions : Prop :=
  (∀ (v : VSrc) (n : Fin 16), Then (.pdep v n) none (fun _ _ => { srcs := [(v, 16)], wait := true })
    (fun s c => (s.gridOf c.g).panBound n.val = true ∧ ∀ l, l < 64 → has c.mask l → itemBad (pair c v l) = false)
    (fun s c => { wait := true, waits := [(.pan (s.ids + 1), c.mask)]
                  mio := fun m => withFifo c [marker .pkg (.pdep (s.ids + 1) ((lanesOf c.mask).map fun l =>
                      { take := false, dep := true, try_ := false, region := (s.gridOf c.g).panBase n.val, lane := l, words := runWords c.g v l, tid := c.g.tidAt l }))]
                    { m with seq := m.seq + 1
                             pans := m.pans ++ [{ id := s.ids + 1, seq := m.seq, mask := c.mask, left := lanesOf c.mask, dst := none, depth := c.g.fdepth, pc := c.pc }] } })
    fun s c u t => t = { u with ids := u.ids + 1 } ∧ Publishes s t c) ∧
  (∀ (take : Bool) (f : XPan), Then (if take then .ptake f else .pcopy f) none (fun _ _ => { srcs := [(f.p, 16)], dsts := [(f.d.val, 16)], wait := true })
    (fun s c => (s.gridOf c.g).panBound f.n.val = true ∧ ∀ l, l < 64 → has c.mask l → patBad (pair c f.p l) = false)
    (fun s c => { wait := true, waits := [(.pan (s.ids + 1), c.mask)]
                  mio := fun m => { m with
                    seq := m.seq + 1
                    pans := m.pans ++ [{ id := s.ids + 1, seq := m.seq, mask := c.mask, left := lanesOf c.mask, dst := some f.d.val, depth := c.g.fdepth, pc := c.pc }] } })
    fun s c u t => t = { u with ids := t.ids, preqs := t.preqs } ∧ t.ids = u.ids + 1 + (lanesOf c.mask).length ∧
      (∀ j, j ≤ u.ids + 1 → get? t.preqs j = get? u.preqs j) ∧
      ∀ n l, (lanesOf c.mask)[n]? = some l → get? t.preqs (u.ids + 2 + n) = some
        { msg := { take := take, dep := false, try_ := f.try_, region := (s.gridOf c.g).panBase f.n.val, lane := l, words := runWords c.g f.p l, tid := c.g.tidAt l }
          asn := (s.asnOf (s.gridOf c.g).vf).getD 0, vf := (s.gridOf c.g).vf, grp := c.key, op := s.ids + 1, st := 0, ans := none, team := c.g.team, num := c.g.num }) ∧
  (∀ (g : Group) v l e, e < 8 → (runWords g v l).getD e 0 = join (lane (g.srcAt v (2 * e)) l) (lane (g.srcAt v (2 * e + 1)) l))

/-- R253 to R263: `mx` and `mx.sp` enter the core's matrix engine when it has room, `mzero` writes zeros in every lane position, `mmov` moves rows, and
`mxq` appends its row to a sparse index queue that has room (that it waits for the group's older accesses is the model's reading: LOG 109). -/
def Obligations.MatrixInstructions : Prop :=
  (∀ (sparse : Bool) (f : MX), Then (if sparse then .mxSp f else .mx f) none
    (fun _ c => { srcs := [(.row f.a, aRows sparse ⟨(word c f.fw (lowestOf (active c none))).toNat⟩), (.row f.b, bRows ⟨(word c f.fw (lowestOf (active c none))).toNat⟩), (f.fw, 1)]
                  mdsts := [(16 * f.dq.val, 64)], mxD := true, skip := true, own := mxChecks c.g (active c none) sparse f })
    (fun s c => (s.mxAt (coreOf c.key)).length < 16 ∧ (sparse = true → (s.gridOf c.g).attr 5 = true)) (fun _ _ => {}) fun _ c u t =>
      t = u.setMxAt (coreOf c.key) (u.mxAt (coreOf c.key) ++
        [{ grp := c.key, depth := c.g.fdepth, sparse := sparse, a := f.a.val, b := f.b.val, dq := f.dq.val, word := word c f.fw (lowestOf c.mask)
           xq := c.g.regs.xqsel.toNat, started := false, idx := [], pc := c.pc, mask := c.mask }])) ∧
  (∀ dq : Fin 8, Then (.mzero dq) none (fun _ _ => { mdsts := [(16 * dq.val, 16)] }) (fun _ _ => True)
    (fun _ _ => { mrows := (List.range 16).map fun e => (16 * dq.val + e, BitVec.allOnes 64, fun _ => 0) }) fun _ _ u t => t = u) ∧
  (∀ (dq : Fin 8) (e : Fin 16) (d : VReg), RowResult (.mmovVm dq e d) none 4 { msrcs := [(16 * dq.val + e.val, 1)], dsts := [(d.val, 1)] } d false fun c l r =>
    r = lane (c.g.mrow (16 * dq.val + e.val)).w l) ∧
  (∀ (dq : Fin 8) (e : Fin 16) a, Then (.mmovMv dq e a) none (fun _ _ => { srcs := [(a, 1)], mdsts := [(16 * dq.val + e.val, 1)] }) (fun _ _ => True)
    (fun _ c => { mrows := [(16 * dq.val + e.val, c.mask, word c a)] }) fun _ _ u t => t = u) ∧
  (∀ (q : Fin 4) a, Then (.mxq q a) none (fun _ _ => { srcs := [(a, 1)] })
    (fun s c => (s.gridOf c.g).attr 5 = true ∧ ((s.team c.g.team).xqState q.val).2 < 8 ∧ c.g.readsOpen = false ∧ c.g.mio.fifo = []) (fun _ _ => {}) fun s c u t =>
      let hc := (s.team c.g.team).xqState q.val
      let off := (s.grid (s.team c.g.team).grid).xqOff q.val (hc.1 + hc.2)
      t = { u with teams := t.teams } ∧ (∀ j, j ≠ c.g.team → t.team j = u.team j) ∧ (t.team c.g.team).xqState q.val = (hc.1, hc.2 + 1) ∧
      (∀ x, (t.team c.g.team).scr.read x = if off ≤ x ∧ x < off + 256
        then ((if has c.g.lanes.present ((x - off) / 4) then word c a ((x - off) / 4) else 0).extractLsb' (8 * ((x - off) % 4)) 8)
        else (s.team c.g.team).scr.read x) ∧
      ∃ a b x g, t.team c.g.team = { u.team c.g.team with scr := a, scrPx := b, xq := x, guard := g })
/-! ## Accesses that complete -/

/-- LOAD_LAND (R66, R67, R72, R74, R211, R217, R219), STORE_DRAIN (R66, R207, R452), ATOMIC_PERFORM (R75, R76,
R221 to R223) and RELEASE_COMPLETE (R68, R219, R226, R228): what a group has entered into the memory system
completes. The model's choices here: a load takes all its bytes at one moment (LOG 6), a release leaves every
line of the L1 clean (LOG 25), the line of an `hpush` (LOG 108), and when a home access makes a visitor line
leave (LOG 93). -/
def Obligations.AccessEvents : Prop :=
  (∀ s k n l, Stays s k → (s.grp k).mio.loads[n]? = some l → s.landable k l = true → (∀ a ∈ l.accs, Acc.inLine a) →
    LinesAgree l.accs l.accs →
    let u := match l.acq with
      | some sc => s.acquireBy k sc
      | none => s
    let fused := (s.gridOf (s.grp k)).fused
    ((∃ a ∈ l.accs, u.asksHost (coreOf k) fused a = true) → Config.hostFails s.fresh = false) →
    ∃ (t : State) (xs : List Loaded), exec (.loadLand k n) s = .next t ∧ LoadBeside u t ∧ OthersStay s t [k] ∧
      t.grp k = Group.landLoad { s.grp k with mio := { (s.grp k).mio with loads := (s.grp k).mio.loads.eraseIdx n } } l xs ∧
      xs.length = l.accs.length ∧
      (∀ (j : Nat) (a : Acc) (x : Loaded), l.accs[j]? = some a → xs[j]? = some x → LoadFinds u (coreOf k) fused (s.grp k).mio.fifo l (loadWidth l.dst) a x) ∧
      (NoPoison u → (∀ e ∈ (s.grp k).mio.fifo, ∀ i, e.op ≠ .poison i) → ∀ x ∈ xs, ∀ b ∈ x.2, b.2 = false)) ∧
  (∀ (g : Group) (l : Ld) xs signed d i x, l.dst = .rows signed d 1 → l.depth = g.fdepth → i < 64 → g.frames ≠ [] →
    xs.find? (fun y => y.1 == i) = some (i, [(x, false)]) →
      lane ((g.landLoad l xs).row d).w i = (if signed then x.signExtend 32 else x.setWidth 32) ∧ has ((g.landLoad l xs).row d).px i = false) ∧
  (∀ s k e es items, Stays s k → (s.grp k).mio.fifo = e :: es → s.headHeld k e = false → e.op = .store items →
    (∀ x ∈ items, Acc.inLine x.1 ∧ x.2.length = x.1.n ∧ x.1.tgt ≠ .zero) →
    let fused := (s.gridOf (s.grp k)).fused
    L1Place s (coreOf k) fused → LinesAgree (items.map Prod.fst) (items.map Prod.fst) → (∀ x ∈ items, Settled s (coreOf k) fused x.1) →
    ∃ t, exec (.storeDrain k) s = .next t ∧ StoreBeside s t ∧ OthersStay s t [k] ∧ t.grp k = (s.grp k).dropHead ∧
      (∀ (j : Nat) (x : Acc × List Byte), items[j]? = some x → (∀ (m : Nat) (y : Acc × List Byte), j < m → items[m]? = some y → Acc.meets x.1 y.1 = false) →
        ∀ i, i < x.1.n → seenByte t (coreOf k) fused x.1.tgt i = x.2.getD i 0) ∧
      (∀ a, Acc.inLine a → Settled s (coreOf k) fused a → LinesAgree (items.map Prod.fst) [a] → (∀ x ∈ items, Acc.meets x.1 a = false) → ∀ i, i < a.n →
        seenByte t (coreOf k) fused a.tgt i = seenByte s (coreOf k) fused a.tgt i)) ∧
  (∀ s k e es items, Stays s k → (s.grp k).mio.fifo = e :: es → s.headHeld k e = false → e.op = .poison items →
    (∀ a ∈ items, a.va % 128 = 0 ∧ match a.tgt with
      | .dev pa _ => pa % 128 = 0
      | .scr _ off => off % 128 = 0
      | _ => False) →
    let fused := (s.gridOf (s.grp k)).fused
    L1Place s (coreOf k) fused → LinesAgree items items → (∀ a ∈ items, Settled s (coreOf k) fused a) →
    ∃ t, exec (.storeDrain k) s = .next t ∧ StoreBeside s t ∧ OthersStay s t [k] ∧ t.grp k = (s.grp k).dropHead ∧
      (∀ a, Acc.inLine a → Settled s (coreOf k) fused a → LinesAgree items [a] → ∀ i, i < a.n → seenByte t (coreOf k) fused a.tgt i = seenByte s (coreOf k) fused a.tgt i) ∧
      (∀ a ∈ items, ∀ i, i < 128 → (t.readByte (coreOf k) fused a i).2 = true)) ∧
  (∀ s k e es op wide dst items, Stays s k → NoPoison s → (s.grp k).mio.fifo = e :: es → s.headHeld k e = false →
    e.op = .atom op wide dst items none → LinesIn s → (∀ x ∈ items, x.1.lane < 64 ∧ x.1.n = (if wide then 8 else 4) ∧ Acc.inLine x.1 ∧ match x.1.tgt with
      | .dev pa _ => (∀ c, get? (s.core c).l1 (lineKey false pa) = none) ∧ (∀ d, get? (s.die d).visitors (lineKey false pa) = none)
      | .scr _ _ => True
      | .par _ d _ => d < 4
      | _ => False) →
    ∃ t u olds, exec (.atomicPerform k) s = .next t ∧ AtomRun op wide s items u olds ∧
      t = { u with groups := t.groups } ∧ OthersStay s t [k] ∧
      (dst = none → t.grp k = (s.grp k).dropHead) ∧
      (∀ d, dst = some d → e.depth = (s.grp k).fdepth → (s.grp k).frames ≠ [] → ∀ r i, i < 64 → lane ((t.grp k).row r).w i =
        match olds.find? fun x => x.1 == i with
        | some x => if r = d then loW x.2 else if wide = true ∧ r = d + 1 then hiW x.2 else lane ((s.grp k).row r).w i
        | none => lane ((s.grp k).row r).w i) ∧
      t.grp k = { (s.grp k).dropHead with frames := (t.grp k).frames }) ∧
  (∀ op (x y z : W32), AtomHolds 32 op x y z (loW (atomNew false op (x.setWidth 64) (y.setWidth 64) (z.setWidth 64)))) ∧
  (∀ op x y z, AtomHolds 64 op x y z (atomNew true op x y z)) ∧
  (∀ (x y : W32) z, loW (atomNew false .fadd (x.setWidth 64) (y.setWidth 64) z) = fopWord .add .f32 x y 0) ∧
  (∀ x y z, atomNew true .fadd x y z = fopPair .add x y 0) ∧
  (∀ s k e es sc, Stays s k → (s.grp k).mio.fifo = e :: es → s.headHeld k e = false → e.op = .rel sc .none →
    ∃ t u, exec (.releaseComplete k) s = .next t ∧ t = u.upd k Group.dropHead ∧ (sc = .grp ∨ sc = .team → u = s) ∧
      (sc ≠ .grp → sc ≠ .team → (s.gridOf (s.grp k)).fused = false → L1Sound s (coreOf k) → ReleasedAt s u (coreOf k) sc)) ∧
  (∀ s k e es sc set i v, Stays s k → (s.grp k).mio.fifo = e :: es → s.headHeld k e = false → e.op = .rel sc (.sem set i v) →
    let tm := s.team (s.grp k).team
    let new := if set then v else s.sem tm i + v
    ∃ t, exec (.releaseComplete k) s = .next t ∧ (∀ j, t.sem tm j = if j = i then new else s.sem tm j) ∧
      (∀ j, (s.grp j).live = true → (s.grp j).team = (s.grp k).team → (t.grp j).lanes.waits = (s.grp j).lanes.waits.filter fun w => match w.1 with
        | .sem m x => !(m == i && x.ule new)
        | _ => true) ∧ (t.grp k).mio.fifo = es) ∧
  (∀ s k e es sc l, Stays s k → (s.grp k).mio.fifo = e :: es → s.headHeld k e = false → e.op = .rel sc (.arrive l) →
    let g := s.grp k
    let inst := s.barInst g.team l
    let u := s.barUnit g.grid l inst
    (∃ j, (s.grp j).live = true ∧ (s.team (s.grp j).team).grid = g.grid ∧ s.barInst (s.grp j).team l = inst ∧
      ¬ partNum (s.grp j).team (s.grp j).num ∈ insertNat (partNum g.team g.num) u.arrived ∧ get? s.teams (s.grp j).team ≠ none) →
    ∃ t, exec (.releaseComplete k) s = .next t ∧ t.barUnit g.grid l inst = { u with arrived := insertNat (partNum g.team g.num) u.arrived } ∧
      OthersStay s t [k] ∧ t.grp k = g.dropHead) ∧
  (∀ s k e es sc h v m, Stays s k → (s.grp k).mio.fifo = e :: es → s.headHeld k e = false → e.op = .rel sc (.hpush h v m) →
    let tm := s.team (s.grp k).team
    (∀ x ∈ tm.poppers, x.1 ≠ h) → (∀ x ∈ tm.pushers, x.1 ≠ h) → (tm.handles h).length < s.hatchSlots (s.grp k).team h →
    ∃ t, exec (.releaseComplete k) s = .next t ∧ t.team (s.grp k).team = { tm with hatch := put tm.hatch h (tm.handles h ++ [v]), guard := (t.team (s.grp k).team).guard } ∧
      OthersStay s t [k] ∧ t.grp k = (s.grp k).dropHead.endOne (.hpush h, m)) ∧
  (∀ s k e es sc h v m n, Stays s k → (s.grp k).mio.fifo = e :: es → s.headHeld k e = false → e.op = .rel sc (.hpush h v m) →
    let tm := s.team (s.grp k).team
    tm.pushers[n]? = some (h, k, v, m, false) → (∀ i x, i < n → tm.pushers[i]? = some x → x ≠ (h, k, v, m, false)) →
    (∀ x ∈ tm.poppers, x.1 ≠ h) → s.hatchSlots (s.grp k).team h ≤ (tm.handles h).length →
    ∃ t, exec (.releaseComplete k) s = .next t ∧ t.team (s.grp k).team = { tm with pushers := tm.pushers.set n (h, k, v, m, true) } ∧
      OthersStay s t [k] ∧ t.grp k = (s.grp k).dropHead) ∧
  (∀ s k e es sc w off m q, Stays s k → (s.grp k).mio.fifo = e :: es → s.headHeld k e = false → e.op = .rel sc (.wpush w off m) →
    s.wq (s.gridOf (s.grp k)).vf w = some q →
    ∃ t r, exec (.releaseComplete k) s = .next t ∧ t.wq (s.gridOf (s.grp k)).vf w = some { q with line := q.line ++ [r] } ∧ r.grp = k ∧ r.push = true ∧
      r.mask = m ∧ r.off = off ∧ OthersStay s t [k] ∧ t.grp k = (s.grp k).dropHead) ∧
  (∀ s k e es sc op msgs, Stays s k → (s.grp k).mio.fifo = e :: es → s.headHeld k e = false → e.op = .rel sc (.pdep op msgs) →
    ∃ t, exec (.releaseComplete k) s = .next t ∧ OthersStay s t [k] ∧ t.grp k = (s.grp k).dropHead ∧ t.ids = s.ids + msgs.length ∧
      ∀ i m, msgs[i]? = some m → ∃ p, get? t.preqs (s.ids + 1 + i) = some p ∧ p.msg = m ∧ p.grp = k ∧ p.op = op ∧ p.st = 0 ∧ p.ans = none)
/-! ## Groups and the distributor -/

/-- R24, R45, R46, R81, R185, R188, R190 to R192, R303, R323, R332, R341, R355, R397, R400, R459: the events of a group's life away from issue. The
model's readings here: the pace counts of a team start at 0 at an arrival (LOG 99), a generation advances at PLANE_CLEAR (LOG 60), the base of a ring
is host-physical (LOG 46), the cellar engine of a core serves the short partitions in ascending order (LOG 141), and the fault of a refused `launch`
names every lane of its issue mask (LOG 39). -/
def Obligations.GroupEvents : Prop :=
  (∀ s die asn va r e pa i m, asn < 128 → (s.space asn).root = some r → s.walk (some asn) va.toNat = .ok e pa →
    (get [] s.walks die)[i]? = some m → i < 256 → m.asn = asn → m.page = va.toNat / 65536 →
    (∀ j x, j < i → (get [] s.walks die)[j]? = some x → ¬ (x.asn = asn ∧ x.page = va.toNat / 65536)) →
    ∃ t u x, exec (.translationWalkComplete die asn va) s = .next t ∧ x.asn = asn ∧ x.pte = e ∧ Caches s u ∧
      t = { u with walks := t.walks, dies := t.dies, cores := t.cores, fresh := t.fresh } ∧
      (∀ d, get [] t.walks d = if d = die then (get [] s.walks die).eraseIdx i else get [] s.walks d) ∧
      (∀ d, t.die d = { u.die d with tlb := (t.die d).tlb } ∧ (d ≠ die → t.die d = u.die d)) ∧
      (∀ c, t.core c = { u.core c with tlb := (t.core c).tlb } ∧ (c ∉ m.cores → t.core c = u.core c)) ∧
      x ∈ (t.die die).tlb ∧ (∀ y ∈ (t.die die).tlb, y = x ∨ y ∈ (s.die die).tlb) ∧
      ((s.die die).tlb.length ≤ 32768 → (t.die die).tlb.length ≤ 32768) ∧
      (∀ c ∈ m.cores, x ∈ (t.core c).tlb ∧ (dieOf c = die → NoneWait s →
        t.xlate c (some asn) va.toNat = .ok e pa)) ∧
      (∀ c, m.cores.Nodup → (s.core c).tlb.length ≤ 512 → (t.core c).tlb.length ≤ 512)) ∧
  (∀ s c k d, c % 64 < 48 → (s.shortParts c).findSome? (fun p => s.nextSpill c p true) = some (k, d) →
    ∃ t, exec (.cellarSpillAck c) s = .next t ∧
      t = (s.setGrp k ((s.grp k).setFrameAt d { (s.grp k).frameAt d with spilled := true })).settle c ∧
      ((s.groups.map Prod.fst).Nodup → coreOf k = c ∧ (s.grp k).live = true ∧ s.partOf (s.gridOf (s.grp k)) ∈ s.shortParts c ∧ ((s.grp k).frameAt d).spilled = false ∧
        s.pinned k d = false ∧ d ≤ (s.grp k).fdepth ∧
        (d = (s.grp k).fdepth → ((s.grp k).longWait = true ∨ (s.grp k).eligible ≠ 0) ∧ ∀ w ∈ (s.core c).line, w.grp = k → ∃ q, w.act = .bin q))) ∧
  (∀ s k, (∀ w ∈ (s.core (coreOf k)).line, w.grp = k → ∃ t, w.act = .bin t) → (s.grp k).top.spilled = false →
    exec (.refillComplete k) s = .next (s.setGrp k (goOnFrom (s.grp k) (· == .frame)))) ∧
  (∀ s t b x, (s.team t).bins[b]? = some x → ∃ u, exec (.reformBinTimeout t b) s = .next u ∧
    u = s.setTeam t { s.team t with bins := (u.team t).bins } ∧ (u.team t).bins = (s.team t).bins.set b { x with due := true }) ∧
  (∀ s t b n, (s.team t).live = true → (s.team t).pre ≠ 2 → (s.team t).bins = [b] → b.due = true → s.freeNumber t = some n → NoLine s →
    s.partOf (s.grid (s.team t).grid) < 16 → coreOf ((s.team t).slots.headD 0) = (s.team t).core →
    chainRows (binGroup b (s.team t).ghosts n).frames ≤ s.freeRows (s.team t).core (s.partOf (s.grid (s.team t).grid)) →
    let k := (s.team t).slots.getD n 0
    ∃ u, exec (.reformBinLeave t) s = .next u ∧ OthersStay s u [k] ∧ u.team t = { s.team t with bins := [], ghosts := [], back := (u.team t).back } ∧
      (u.grp k).live = true ∧ (u.grp k).num = n ∧ (u.grp k).role = b.role ∧ (∀ l, l < 64 → pcOf (u.grp k).lanes.pc l = b.pc) ∧
      (∀ l, l < 64 → has (u.grp k).lanes.present l = decide (l < b.lanes.length)) ∧ (u.grp k).lanes.fin = 0 ∧ (u.grp k).lanes.waits = [] ∧
      (∀ l x, b.sorted[l]? = some x → l < 64 → (u.grp k).lanes.tid.toList.getD l 0 = (get {} (s.team t).ghosts x.2.1).lanes.tid.toList.getD x.2.2 0 ∧
        ∀ lead r, lead = get {} (s.team t).ghosts (b.sorted.headD (0, 0, 0)).2.1 → lead.frames ≠ [] → r < lead.top.nv →
          lane ((u.grp k).row r).w l = lane (get {} ((get {} (s.team t).ghosts x.2.1).frameAt lead.fdepth).v r).w x.2.2)) ∧
  (∀ s k, exec (.yieldTimeout k) s = .next (s.setGrp k (goOnFrom (s.grp k) Wait.yields))) ∧
  (∀ s k p code, (s.grp k).park = some p → p.why = .trap code → p.sent = false → (s.grp k).mio.fifo = [] → k < 4 * 8192 → s.mod_.link.state < 2 →
    let vf := (s.gridOf (s.grp k)).vf
    RingRoom (s.vf vf).svc →
    ∃ t b, exec (.trapRecordWrite k) s = .next t ∧ Rung s.mem.host t.mem.host (s.vf vf).svc (t.vf vf).svc b ∧ (t.vf vf).ints = (s.vf vf).ints ++ (if (s.vf vf).svc.prod = (s.vf vf).svc.cons then [1] else []) ∧
      t.mem = { s.mem with host := t.mem.host } ∧ OthersStay s t [k] ∧ (t.grp k) = { s.grp k with park := (t.grp k).park } ∧
      (∃ q, (t.grp k).park = some q ∧ q.sent = true ∧ q.mask = p.mask ∧ q.pc = p.pc ∧ q.why = p.why) ∧
      b.length = 64 ∧ fieldAt b 0 2 = code.toNat ∧ fieldAt b 2 1 = dieOf (coreOf k) ∧ fieldAt b 3 1 = coreOf k % 64 ∧ fieldAt b 4 1 = slotOf k ∧
      fieldAt b 5 1 = (if (s.grp k).regs.mode then 1 else 0) ∧ fieldAt b 8 4 = (s.gridOf (s.grp k)).num.toNat ∧
      fieldAt b 16 8 = p.pc.toNat ∧ fieldAt b 24 8 = p.mask.toNat ∧ (∀ i, i < 4 → fieldAt b (32 + 8 * i) 8 = (get {} ((s.grp k).frameAt p.depth).sc i).v.toNat)) ∧
  (∀ s k p, (s.grp k).park = some p → p.why = .fault → p.sent = false → (s.grp k).mio.fifo = [] → HomeOff s (s.grp k).grid →
    ∃ t r q, exec (.faultPark k) s = .next t ∧ HeldAtHome s t (s.grp k).grid r ∧ t.grp k = { s.grp k with park := some q } ∧ q.sent = true ∧ OthersStay s t [k] ∧
      t.mem = s.mem ∧ r.cls = p.cls ∧ r.kind = p.flt.kind ∧ r.mask = p.flt.mask.toNat ∧ r.addr = p.flt.addr.toNat ∧ r.aux = p.flt.aux.toNat ∧ r.pc = p.pc.toNat ∧
      r.die = dieOf (coreOf k) ∧ r.core = coreOf k % 64 ∧ r.slot = slotOf k ∧ r.grid = (s.gridOf (s.grp k)).num.toNat ∧ r.vf = (s.gridOf (s.grp k)).vf) ∧
  (∀ r : Rec, (Rec.bytes r).length = 64 ∧ fieldAt (Rec.bytes r) 0 1 = r.cls % 256 ∧ fieldAt (Rec.bytes r) 1 1 = r.kind / 256 % 256 ∧
    fieldAt (Rec.bytes r) 2 2 = r.kind % 2 ^ 16 ∧ fieldAt (Rec.bytes r) 16 8 = r.pc % 2 ^ 64 ∧ fieldAt (Rec.bytes r) 24 8 = r.mask % 2 ^ 64 ∧
    fieldAt (Rec.bytes r) 32 8 = r.addr % 2 ^ 64 ∧ fieldAt (Rec.bytes r) 40 8 = r.aux % 2 ^ 64 ∧ fieldAt (Rec.bytes r) 48 8 = r.count % 2 ^ 64) ∧
  (∀ s k pc mask card r off, (s.grp k).stall = some (.launch pc mask card r false off) → (s.grp k).mio.fifo = [] →
    let gr := s.gridOf (s.grp k)
    Acceptable (s.msg (dieOf (coreOf k)) 4) gr.vf gr.home card none →
    ∃ t, exec (.launchAnswer k) s = .next t ∧ Accepted s t gr.vf gr.home card none (s.vf gr.vf).nextGrid ∧ OthersStay s t [k] ∧
      t.grp k = Group.setSc { s.grp k with stall := none } r ⟨(s.vf gr.vf).nextGrid.setWidth 64, false⟩) ∧
  (∀ s k pc mask card r off why, (s.grp k).stall = some (.launch pc mask card r false off) → (s.grp k).mio.fifo = [] → card.length ≠ 256 → why = 17 →
    fieldAt card 72 4 = 0 → fieldAt card 40 2 = 0 → s.vectorHeld (s.gridOf (s.grp k)).vf 0x0C = false → s.vector (s.gridOf (s.grp k)).vf 0x0C = none →
    ∃ t p, exec (.launchAnswer k) s = .next t ∧ (t.grp k).park = some p ∧ p.why = .fault ∧ p.flt = ⟨0x0C01, mask, off, BitVec.ofNat 64 why⟩ ∧ p.pc = pc ∧
      p.mask = mask ∧ p.sent = false ∧ (t.grp k).stall = none ∧ OthersStay s t [k]) ∧
  (∀ s asn e, s.groups.find? (fun e => e.2.stall == some .plane && e.2.mio.fifo == [] && s.asnOf (s.gridOf e.2).vf == some asn) = some e →
    ∃ t, exec (.planeClear asn) s = .next t ∧ t.grp e.1 = { s.grp e.1 with stall := none } ∧ OthersStay s t [e.1] ∧
      (t.space asn).gen = (s.space asn).gen + 1 ∧ get? (t.space asn).planes (((s.space asn).gen + 1) % 4) = none ∧
      ∀ p, p ≠ ((s.space asn).gen + 1) % 4 → get? (t.space asn).planes p = get? (s.space asn).planes p) ∧
  (∀ s die stamp, die ≤ 4 → exec (.messageReceive die stamp) s =
    .next (s.setDie die { s.die die with count := (if (s.die die).count.toNat ≤ stamp.toNat then stamp else (s.die die).count) + 1 })) ∧
  (∀ s k, (s.grp k).study.phase = 1 → s.drained k = true → (s.grp k).study.due = none →
    ((s.study (s.grp k).study.core).full = true ∨ (s.study (s.grp k).study.core).r 10 = 0 ∨ 32768 ≤ (s.study (s.grp k).study.core).free) →
    ∃ t u, exec (.studyMigrationArrive k false) s = .next t ∧ StoreBeside u t ∧ t.groups = u.groups ∧
      u = { s with groups := u.groups, studies := u.studies, mem := u.mem, fresh := u.fresh } ∧ u.mem = { s.mem with dev := u.mem.dev } ∧
      t.grp k = { s.grp k with study := { (s.grp k).study with phase := 2, quota := 0, pace := 0 } } ∧
      ∀ j, j ≠ k → t.grp j = if (s.grp j).team = (s.grp k).team then { s.grp j with study := { (s.grp j).study with pace := 0 } } else s.grp j) ∧
  (∀ s k, (s.grp k).study.phase = 1 → s.drained k = true → (s.gridOf (s.grp k)).vf < 128 →
    ∃ t, exec (.studyMigrationArrive k true) s = .next t ∧ OthersStay s t [k] ∧
      t.grp k = { s.grp k with frames := (s.grp k).frames.map (fun f => { f with away := false }), study := { pace := (s.grp k).study.pace } } ∧
      (∀ e ∈ (t.study (s.grp k).study.core).slots, e.2 ≠ k) ∧
      t.mod2.pferrc0 = (if s.mod2.pferrc0 = -1 then s.mod2.pferrc0 else s.mod2.pferrc0 + 1)) ∧
  (∀ s k, (s.grp k).study.phase = 3 → s.drained k = true → (s.grp k).study.reason ≠ 9 → (s.study (s.grp k).study.core).r 10 = 0 →
    (∀ p ∈ (s.grp k).mio.pans, p.traced = false) →
    ∃ t u, exec (.studyReturnComplete k [] false false) s = .next t ∧ StoreBeside u t ∧ t.groups = u.groups ∧
      u = { s with groups := u.groups, studies := u.studies, fresh := u.fresh } ∧
      OthersStay s t [k] ∧ t.grp k = { goOnFrom (s.grp k) (· == .stop) with frames := (s.grp k).frames.map (fun f => { f with away := false })
                                                                            study := { pace := (s.grp k).study.pace } } ∧
      (∀ e ∈ (t.study (s.grp k).study.core).slots, e.2 ≠ k))

/-- R31, R36, R54, R55, R305, R307, R308, R310, R313, R314, R428 to R431: what the distributor and the watchdog do. The model's choices here: a team
takes the lowest free block of semaphores and the lowest slots (LOG 53), its groups start in unprivileged mode (LOG 15), and how slices and windows
count waiting (LOG 62). -/
def Obligations.SchedulingEvents : Prop :=
  (∀ s p k rest u, s.lineOf p = k :: rest → s.placeStep k = some u → exec (.teamPlace p) s = .next u.cutCheck) ∧
  (∀ s p k j rest u, s.lineOf p = k :: j :: rest → s.placeStep k = none → s.placeStep j = some u →
    exec (.teamPlace p) s = .next (if 2 ≤ (s.grid k).run.waited then s else u.cutCheck)) ∧
  (∀ s p k rest, s.lineOf p = k :: rest → (s.savedTeams k = [] ∧ (s.grid k).rl = none ∧ (s.grid k).gang = 0 ∧ (s.grid k).coresident = false) →
    (s.grid k).run.next < (s.grid k).teams → ∀ d ds c, s.dieOrder k = d :: ds → s.pickCore d k (s.grid k).teamRows 0 = some c →
    (s.core c).arm = [] → s.mod_.cutState = 0 → (s.grid k).ngroup ≤ (s.freeSlots c (s.partOf (s.grid k))).length →
    ∃ t, exec (.teamPlace p) s = .next t ∧ t.ids = s.ids + 1 ∧ (t.grid k).run.next = (s.grid k).run.next + 1 ∧
      (t.team t.ids).live = true ∧ (t.team t.ids).grid = k ∧ (t.team t.ids).lin = (s.grid k).run.next ∧ (t.team t.ids).core = c ∧ (t.team t.ids).first = c ∧
      (t.team t.ids).slots = (s.freeSlots c (s.partOf (s.grid k))).take (s.grid k).ngroup ∧ (t.team t.ids).scr = [] ∧
      (∀ i, i < (s.grid k).nsem → t.sem (t.team t.ids) i = 0) ∧ ((s.grid k).fused = false → (s.grid k).parlour = 0 → t.mem.dev = s.mem.dev ∧ t.mem.host = s.mem.host) ∧
      ∀ n slot, (t.team t.ids).slots[n]? = some slot → StartsAs (s.grid k) k t.ids n (t.grp slot)) ∧
  (∀ s t c p k rest base lin ms m, (s.team t).going = none → p = s.partOf (s.grid (s.team t).grid) → s.lineOf p = k :: rest → (s.grid k).gang ≠ 0 →
    s.placeStep k = none → s.compacts k = some (base, lin, ms) → m ∈ ms → t ∈ m → dieOf c = dieOf base → c % 64 / 4 ≠ base % 64 / 4 → c % 64 < 47 →
    s.takesTeam c t = true → (s.team t).grid ≠ k →
    ∃ u, exec (.teamMove t c) s = .next u ∧ u = { s.setTeam t { s.team t with going := some c } with grids := u.grids } ∧
      (∀ j, j ≠ k → j ≠ (s.team t).grid → u.grid j = s.grid j) ∧
      u.grid k = { s.grid k with run := { (s.grid k).run with
        moves := if (s.grid k).run.moves.contains (lin, t) then (s.grid k).run.moves else (s.grid k).run.moves ++ [(lin, t)] } } ∧
      u.grid (s.team t).grid = { s.grid (s.team t).grid with run := { (s.grid (s.team t).grid).run with inel := true } }) ∧
  (∀ s t c, (s.team t).going = some c → (s.team t).live = true → (s.team t).pre = 0 → NoLine s → (∀ j, ∀ e ∈ (s.core j).jobs, e.2.team ≠ t) →
    (∀ e ∈ s.groupsOf t, e.2.stopped = true ∧ e.2.mio.loads = [] ∧ e.2.mio.fifo = [] ∧ e.2.stall = none ∧ s.mxOf e.1 = []) →
    (∀ e ∈ s.groups, e.2.team = t → e.2.park = none) → s.takesTeam c t = true →
    ∃ u, exec (.teamMove t c) s = .next u ∧ (u.team t).core = c ∧ (u.team t).first = c ∧ (u.team t).live = true ∧ (u.team t).going = none ∧ (u.team t).moved = 11 ∧
      (u.team t).grid = (s.team t).grid ∧ (u.team t).lin = (s.team t).lin ∧ (u.team t).scr = (s.team t).scr) ∧
  (∀ s p, s.lineOf p = [] → s.mod_.cutState = 0 →
    ∃ t, exec (.sliceEnd p) s = .next t ∧ t = { s with grids := t.grids } ∧ ∀ k g, get? s.grids k = some g → get? t.grids k = some
      (if s.partOf g = p ∧ g.run.done = false then { g with run := { g.run with
          waited := 0
          slices := if s.running p (k, g) then g.run.slices + 1 else g.run.slices
          preRun := if g.run.pre = 1 then g.run.preRun else 0 } } else g)) ∧
  (∀ s p k g, s.lineOf p = [] → s.mod_.cutState = 1 → s.inMask g.vf = true → s.grids = [(k, g)] → s.running p (k, g) = true → g.guarded = false →
    (∀ j, (s.grp j).study.phase = 0) →
    ∃ t, exec (.sliceEnd p) s = .next t ∧ (t.grid k).run.pre = 1 ∧ (t.grid k).run.acks = [] ∧ (∀ j, t.grp j = s.grp j) ∧
      ∀ j, (s.team j).live = true → (s.team j).grid = k → (t.team j).pre = 1 ∧ (t.team j).going = none) ∧
  (∀ s k e, (s.grid k).run.pre = 1 → e ∉ (s.grid k).run.acks → s.mod_.cutState = 0 → s.hasMx k = true →
    (e = .lane ∧ s.lanesStopped k = true ∨ (e = .copy ∨ e = .collective) ∧ .lane ∈ (s.grid k).run.acks) →
    ∃ t, exec (.enginePreemptAck k e) s = .next t ∧ t.grid k = { s.grid k with run := { (s.grid k).run with acks := (s.grid k).run.acks ++ [e] } } ∧
      t = { s with grids := t.grids, dies := t.dies, preqs := t.preqs } ∧ (∀ d, t.die d = { s.die d with count := (t.die d).count }) ∧
      (e ≠ .lane → t.preqs = s.preqs) ∧
      (e = .lane → ∀ i r, get? s.preqs i = some r → (s.team r.team).grid = k → r.wd = false → r.st = 1 ∨ r.st = 2 → get? t.preqs i = some { r with st := 4 })) ∧
  (∀ s k, (s.grid k).run.pre = 1 → (s.grid k).run.done = false → (s.grid k).run.preRun < 2 → HomeOff s k → (∀ u ∈ s.bars, u.grid = k → u.arrived = []) →
    ∃ t r, exec (.preemptTimeout k) s = .next t ∧ HeldAtHome s t k r ∧ r.cls = 2 ∧ r.kind = 0x0F02 ∧
      t.grid k = { s.grid k with run := { (s.grid k).run with pre := 0, acks := [], preRun := (s.grid k).run.preRun + 1 } } ∧
      (∀ j, (s.team j).live = true → (s.team j).grid = k → t.team j = { s.team j with pre := 0 }) ∧ t.mem = s.mem ∧ t.groups = s.groups ∧
      ∀ i q, get? s.preqs i = some q → q.st ≠ 4 → get? t.preqs i = some q) ∧
  (∀ s, (∀ e ∈ s.grids, (s.part (s.partOf e.2)).wdog.getLsbD 56 = true → e.2.run.hang + 1 < bits (s.part (s.partOf e.2)).wdog 32 24) →
    (s.grids.map Prod.fst).Nodup →
    ∃ t, exec .hangWindowEnd s = .next t ∧ t = { s with grids := t.grids, teams := t.teams } ∧
      (∀ j, t.team j = { s.team j with moved := (s.team j).moved - 1 }) ∧
      ∀ k g, get? s.grids k = some g → g.run.done = false → get? t.grids k = some { g with run := { g.run with
        hang := if g.run.progress then 0
          else if (s.part (s.partOf g)).wdog.getLsbD 56 = true ∧ s.eligibleGrid k ∧ g.run.inel = false then g.run.hang + 1 else g.run.hang
        progress := false
        inel := !s.eligibleGrid k } }) ∧
  (∀ s k g, s.grids = [(k, g)] → g.edges = [] → g.run.done = false → g.run.progress = false → g.run.inel = false → s.eligibleGrid k = true →
    (s.part (s.partOf g)).wdog.getLsbD 56 = true → bits (s.part (s.partOf g)).wdog 32 24 ≤ g.run.hang + 1 →
    ∃ t, exec .hangWindowEnd s = .next t ∧ (t.grid k).run.done = true ∧ (t.grid k).run.status = 1)

/-! ## Engines, pantry slices and work queues -/

/-- R55, R98, R226, R235, R239 to R248, R253 to R259, R384, R386: the copy engine, the collective engine and the matrix engine. How
many messages a step of a collective sends is the model's reading (LOG 110). -/
def Obligations.EngineEvents : Prop :=
  (∀ s c i j, s.job c i = some j → j.st = .ready → j.engine = .copy → s.engineStopped j = false → s.jobHeld j = false → s.takesFirst c i j = true →
    s.copiesRun c < 16 →
    ∃ t u, exec (.jobStart c i) s = .next t ∧ t = u.setJob c i { j with st := if cardMoved j.card = 0 then .completing else .running } ∧ StoreBeside s u ∧
      u.groups = s.groups ∧ ((s.grid j.grid).fused = false → L1Sound s c → ∀ k, segsMeet (s.rangeSegs j.team j.card 16) k = true →
        ∀ o, (get {} (t.core c).l1 k).dirty o = false)) ∧
  (∀ s c i j off n, OneChunk s c i j n → cardByte j.card 0 = 4 → OwnScratch s j off n →
    ∃ t, exec (.jobChunkDone c i) s = .next t ∧ ChunkDone s t c i j off n fun a => BitVec.ofNat 8 (cardByte j.card (80 + a % 16))) ∧
  (∀ s c i j off n src, OneChunk s c i j n → cardByte j.card 0 = 1 → fieldAt j.card 80 4 = n → fieldAt j.card 84 4 = 1 → OwnScratch s j off n →
    cd j.card 16 = scrBase + src → src + n ≤ (s.grid (s.team j.team).grid).alloc → (src + n ≤ off ∨ off + n ≤ src) → (s.team j.team).scrPx = [] →
    ∃ t, exec (.jobChunkDone c i) s = .next t ∧ ChunkDone s t c i j off n fun a => (s.team j.team).scr.read (src + a)) ∧
  (∀ s c i j, s.job c i = some j → j.st = .completing → j.px = [] → cardScope j.card < 2 → (∀ k, ∀ pc cs, (s.grp k).stall ≠ some (.enq pc cs)) →
    (∃ k, (s.grp k).live = true ∧ (s.grp k).team = j.team) →
    ∃ t, exec (.jobComplete c i) s = .next t ∧ get? (t.core c).jobs i = none ∧
      (∀ n e, n ≠ i → get? (s.core c).jobs n = some e → get? (t.core c).jobs n = some { e with preds := e.preds.filter (· != i) } ∧
        (e.st = .waiting → (∀ p ∈ e.preds, p = i) → t.jobHeld e = false → t.jobReady { e with preds := e.preds.filter (· != i) } = true)) ∧
      (∀ k, t.sem (s.team j.team) k = if cardSem j.card = true ∧ k = cardByte j.card 2 then s.sem (s.team j.team) k + BitVec.ofNat 64 (fieldAt j.card 8 8)
        else s.sem (s.team j.team) k)) ∧
  (∀ s c i j data, s.job c i = some j → j.st = .running → j.engine = .collective → s.engineStopped j = false →
    (∀ m ∈ s.mod2.markers, m.1 ≠ stepPort (cardByte j.card 88) j.step j.desc) →
    cd j.card 96 * collZ j.card ≤ j.buf.length → j.step + 1 < collSteps (cardByte j.card 88) j.desc →
    exec (.collectiveStep c i data) s = .next (((s.shuton (dieOf c) (stepFlits (cardByte j.card 88) j.step j.desc)).progress j.grid).setJob c i { j with
      buf := collOne (cardByte j.card 88) (collZ j.card) (cd j.card 96) j.step j.desc data j.buf
      step := j.step + 1 })) ∧
  (∀ (s : State) die fl, s.shuton die fl = { s with dies := (s.shuton die fl).dies, fresh := s.fresh + (if fl.1 then 1 else 0) } ∧
    ∀ d, (s.shuton die fl).die d = { s.die d with count := ((s.shuton die fl).die d).count }) ∧
  (∀ (s : State) die, die < 4 → ((s.shuton die (true, 0)).die 4).count =
    (if (s.die 4).count.toNat ≤ (Config.peerStamp s.fresh).toNat then Config.peerStamp s.fresh else (s.die 4).count) + 1 + 1) ∧
  (∀ (s : State) die n, die < 4 → 0 < n → ((s.shuton die (false, n)).die 4).count =
    (if (s.die 4).count.toNat ≤ ((s.die die).count + 1).toNat then (s.die die).count + 1 else (s.die 4).count) + 1 + BitVec.ofNat 64 n) ∧
  (∀ op z lo n count left (data buf : List Byte) e, 0 < z → buf.length = count * z → lo + n ≤ count → e < count →
    elemAt (combineAt op z lo n left data buf) z e = if lo ≤ e ∧ e < lo + n then
      (let p := elemAt data z (e - lo)
       let o := elemAt buf z e
       (if op = 0 then p else if left then combine op z p o else combine op z o p) % 256 ^ z) else elemAt buf z e) ∧
  (∀ s c i m, (s.mxAt c)[i]? = some m → m.started = false → (∀ n x, n < i → (s.mxAt c)[n]? = some x → x.started = true) →
    .matrix ∉ (s.gridOf (s.grp m.grp)).run.acks →
    (m.sparse = false → exec (.mxStart c) s = .next (s.setMxAt c ((s.mxAt c).set i { m with started := true, idx := [] }))) ∧
    (m.sparse = true → (s.team (s.grp m.grp).team).scrPx = [] →
      let n := mxK ⟨m.word.toNat⟩ / 32
      let q := (s.grp m.grp).team
      let tm := s.team q
      n ≤ (tm.xqState m.xq).2 →
      ∃ t idx, exec (.mxStart c) s = .next t ∧ idx.length = n ∧
        t = { s.setMxAt c ((s.mxAt c).set i { m with started := true, idx := idx }) with teams := t.teams } ∧ (∀ j, j ≠ q → t.team j = s.team j) ∧
        t.team q = { tm with xq := (t.team q).xq, guard := (t.team q).guard } ∧
        ((t.team q).xqState m.xq).2 = (tm.xqState m.xq).2 - n ∧
        (0 < n → ((t.team q).xqState m.xq).1 = ((tm.xqState m.xq).1 + n) % 8) ∧
        ∀ e l, e < n → l < 64 → (lane (idx.getD e (Vector.replicate 64 0)) l).toNat =
          leNat (tm.scr.readN ((s.grid tm.grid).xqOff m.xq ((tm.xqState m.xq).1 + e) + 4 * l) 4))) ∧
  (∀ s c m rest, s.mxAt c = m :: rest → m.started = true → Stays s m.grp → (∀ l, ((s.grp m.grp).bar l).issued = 0) →
    m.depth ≤ (s.grp m.grp).fdepth → (s.grp m.grp).frames ≠ [] →
    let g := s.grp m.grp
    ∃ t, exec (.mxComplete c) s = .next t ∧ t = (s.setMxAt c rest).setGrp m.grp (t.grp m.grp) ∧
      t.grp m.grp = g.setFrameAt m.depth { g.frameAt m.depth with m := ((t.grp m.grp).frameAt m.depth).m } ∧
      ∀ r i, i < 64 → lane (get {} ((t.grp m.grp).frameAt m.depth).m r).w i =
        if 16 * m.dq ≤ r ∧ r < 16 * m.dq + 64 ∧ has g.lanes.present i then mxElement g m i (r - 16 * m.dq) else lane (get {} (g.frameAt m.depth).m r).w i)

/-- R251, R252, R267 to R279, R374: what the slices of a pantry do with a message, how an answer lands, and the two ends of a work queue. -/
def Obligations.PantryAndWorkQueueEvents : Prop :=
  (∀ s id r g n i, InFlight s id r g false false → FirstMatch g.items r.msg.words n i →
    ∃ t, exec (.pantryCopyArrive id) s = .next t ∧ PantryBeside s t ∧ get? t.preqs id = some { r with st := 3, ans := some i.2 } ∧ t.spaces = s.spaces) ∧
  (∀ s id r g n i, InFlight s id r g false true → FirstMatch g.items r.msg.words n i →
    ∃ t, exec (.pantryTakeArrive id) s = .next t ∧ PantryBeside s t ∧ get? t.preqs id = some { r with st := 3, ans := some i.2 } ∧
      get? (t.space r.asn).regions r.msg.region = some { g with items := g.items.eraseIdx n }) ∧
  (∀ s id r g take, InFlight s id r g false take → (∀ x ∈ g.items, itemMatches x.2 r.msg.words = false) →
    let e : Instr := if take then .pantryTakeArrive id else .pantryCopyArrive id
    ∃ t, exec e s = .next t ∧ PantryBeside s t ∧ t.spaces = s.spaces ∧ get? t.preqs id = some (
      if r.msg.try_ then { r with st := 3, ans := some (List.replicate 8 0) }
      else if s.parkFull r.vf (tagSlice r.msg.tag) then { r with st := 1 } else { r with st := 2, ord := s.ids + 1 })) ∧
  (∀ s id r g take, InFlight s id r g true take → (s.preqs.map Prod.fst).Nodup → (∀ x ∈ s.preqs, x.2.st = 2 → x.2.asn = r.asn → x.2.msg.region = r.msg.region →
      itemMatches (storedItem r.msg.words) x.2.msg.words = true → x.2.msg.take = false) →
    s.itemsFull r.asn r.vf r.msg.region (tagSlice r.msg.tag) = false →
    ∃ t, exec (.pantryDepositArrive id) s = .next t ∧ PantryBeside s t ∧ get? t.preqs id = some { r with st := 3, ans := some [] } ∧
      get? (t.space r.asn).regions r.msg.region = some { g with items := g.items ++ [(r.vf, storedItem r.msg.words)] } ∧
      ∀ m q, get? s.preqs m = some q → q.st = 2 → q.asn = r.asn → q.msg.region = r.msg.region → itemMatches (storedItem r.msg.words) q.msg.words = true →
        get? t.preqs m = some { q with st := 3, ans := some (storedItem r.msg.words) }) ∧
  (∀ s id r g take m q, InFlight s id r g true take → (s.preqs.map Prod.fst).Nodup → get? s.preqs m = some q → q.st = 2 → q.asn = r.asn →
    q.msg.region = r.msg.region → q.msg.take = true → itemMatches (storedItem r.msg.words) q.msg.words = true →
    (∀ x ∈ s.preqs, x.1 ≠ m → x.2.st = 2 → x.2.asn = r.asn → x.2.msg.region = r.msg.region → x.2.msg.take = true →
      itemMatches (storedItem r.msg.words) x.2.msg.words = true → q.ord < x.2.ord) →
    ∃ t, exec (.pantryDepositArrive id) s = .next t ∧ PantryBeside s t ∧ get? t.preqs id = some { r with st := 3, ans := some [] } ∧
      get? t.preqs m = some { q with st := 3, ans := some (storedItem r.msg.words) } ∧ t.spaces = s.spaces) ∧
  (∀ s id r, get? s.preqs id = some r → r.wd = true → r.st ≠ 0 → exec (.pantryWithdrawalArrive id) s = .next { s with preqs := drop s.preqs id }) ∧
  (∀ s id r, get? s.preqs id = some r → r.st = 1 →
    (if r.msg.dep then s.itemsFull r.asn r.vf r.msg.region (tagSlice r.msg.tag) else s.parkFull r.vf (tagSlice r.msg.tag)) = false →
    exec (.pantryHeldResend id) s = .next { s with preqs := put s.preqs id { r with st := 0 } }) ∧
  (∀ s id r ws p, get? s.preqs id = some r → r.st = 3 → r.wd = false → r.ans = some ws → (s.grp r.grp).mio.pans = [p] → p.id = r.op →
    p.left = [r.msg.lane] → p.depth = (s.grp r.grp).fdepth → (s.grp r.grp).frames ≠ [] → (s.grp r.grp).study.phase = 0 → r.msg.lane < 64 →
    ∃ t, exec (.pantryAnswerLand id) s = .next t ∧ get? t.preqs id = none ∧ OthersStay s t [r.grp] ∧ (t.grp r.grp).mio = { (s.grp r.grp).mio with pans := [] } ∧
      (t.grp r.grp).lanes = (goOnFrom (s.grp r.grp) (· == .pan p.id)).lanes ∧
      ∀ row l, l < 64 → lane ((t.grp r.grp).row row).w l = match p.dst with
        | none => lane ((s.grp r.grp).row row).w l
        | some d => if l = r.msg.lane ∧ d ≤ row ∧ row < d + 16 then
            (if (row - d) % 2 = 0 then loW (ws.getD ((row - d) / 2) 0) else hiW (ws.getD ((row - d) / 2) 0)) else lane ((s.grp r.grp).row row).w l) ∧
  (∀ s vf w q i r as, s.wq vf w = some q → q.line[i]? = some r → r.push = false → (∀ n x, n < i → q.line[n]? = some x → x.push = true) → q.head < q.tail →
    (s.grp r.grp).openBefore r.seq = false → s.wqBefore r.grp r.seq = [] → s.wqSlot vf q q.head false = some as → as.length = 64 →
    (s.linkHeld = true → hostIn as = false) → s.fwFails as = false →
    ∃ t, exec (.wpopDeliver vf w) s = .next t ∧ t.wq vf w = some { q with head := q.head + 1, line := q.line.eraseIdx i } ∧
      (∀ (n : Nat) (a : Acc), as[n]? = some a → AtHome s a.tgt 0 ((t.team (s.grp r.grp).team).scr.read (r.off + n))) ∧
      (∀ a, (a < r.off ∨ r.off + 64 ≤ a) → (t.team (s.grp r.grp).team).scr.read a = (s.team (s.grp r.grp).team).scr.read a) ∧
      OthersStay s t [r.grp] ∧ t.grp r.grp = (s.grp r.grp).endOne (.wq w, r.mask) ∧
      ∀ (x : Tgt) m, (∀ j off, x ≠ .scr j off) → AtHome s x m (homeByteOf t x m)) ∧
  (∀ s vf w q i r as, s.wq vf w = some q → q.line[i]? = some r → r.push = true → (∀ n x, n < i → q.line[n]? = some x → x.push = false) →
    q.tail - q.head < q.size → r.cmd = none → s.wqBefore r.grp r.seq = [] → (s.grp r.grp).acqOpen r.seq = false → s.wqSlot vf q q.tail true = some as → as.length = 64 →
    (s.linkHeld = true → hostIn as = false) → (as.map fun (a : Acc) => a.tgt.at_ 0).Nodup →
    ∃ t, exec (.wpushAppend vf w) s = .next t ∧ t.wq vf w = some { q with tail := q.tail + 1, line := q.line.eraseIdx i } ∧
      (∀ (n : Nat) (a : Acc), as[n]? = some a → homeByteOf t a.tgt 0 = (s.team (s.grp r.grp).team).scr.read (r.off + n)) ∧
      (∀ (x : Tgt) m, (∀ a ∈ as, a.tgt.at_ 0 ≠ x.at_ m) → AtHome s x m (homeByteOf t x m)) ∧
      OthersStay s t [r.grp] ∧ t.grp r.grp = (s.grp r.grp).endOne (.wq w, r.mask))

/-! ## Commands and registers -/

/-- R79, R82, R193, R265, R300 to R302, R323, R330, R337, R338, R348, R354, R365 to R375, R402, R405: what each command does, and how it completes. An
APPEND of several records is said record by record: how it starts with room for one, waits while the queue is full, and appends its last. A COPY is
said of any length for the physical function, whose addresses are device-physical (the model's choice: LOG 36), and of one byte, from device memory,
for any function. The model's readings here: a MARK completes at once and its plane is cleared with it (LOG 70), answers of status 1 and 2 move the
lanes of class 1 and class 2 faults (LOG 64), and what is wiped when a VF is bound anew (LOG 76). -/
def Obligations.CommandEvents : Prop :=
  (∀ s vf q i b, Starts s vf q i b → cardByte b 0 = 1 → s.fwHeld (s.asnOf vf) false (fieldAt b 8 8) 256 = false →
    ∀ card u, (s.takeTurn vf q).fwGet (s.writerDie vf q) vf q (fieldAt b 8 8) 256 = (some card, u) → Acceptable u vf q card (some i) →
    ∃ t, exec (.launchCmd vf q) s = .next t ∧ Accepted s t vf q card (some i) (s.vf vf).nextGrid ∧
      get? (t.queue vf q).cmds i = some { bytes := b, started := true, by_ := (s.serverDie vf q).getD 4 }) ∧
  (∀ s vf q i b, Starts s vf q i b → cardByte b 0 = 2 → s.fwHeld (s.asnOf vf) false (fieldAt b 8 8) 64 = false →
    ∀ card w u k, (s.takeTurn vf q).fwGet (s.writerDie vf q) vf q (fieldAt b 8 8) 64 = (some card, w) → w.acceptRl vf card q (some i) = .ok u k →
    exec (.relaunch vf q) s = .next ((u.cmdBegin vf q i (u.grid k).num.toNat).atticLost k) ∧ (u.grid k).prio = min (cardByte card 3 % 8) (s.vf vf).maxprio ∧
      ∃ r, (u.grid k).rl = some r ∧ r.attic = fieldAt card 8 8 ∧ r.begun = false ∧ r.all = (cardByte card 1 % 2 == 1)) ∧
  (∀ s vf q i b, Starts s vf q i b → cardByte b 0 = 3 → fieldAt b 12 4 = 1 → (s.queue vf q).appending = none → ∀ as w src dst k,
    s.fwBytes (s.asnOf vf) false (fieldAt b 16 8) 64 = .ok as → w = cardByte b 8 → s.wq vf w = some k → k.tail - k.head < k.size →
    (∀ r ∈ k.line, r.push = false ∧ r.cmd = none) →
    (∃ ds, s.fwBytes (s.asnOf vf) true (k.base + 64 * (k.tail % k.size)) 64 = .ok ds) →
    (Begun s vf q i 0).fwBytes (s.asnOf vf) false (fieldAt b 16 8) 64 = .ok src →
    (Begun s vf q i 0).fwBytes (s.asnOf vf) true (k.base + 64 * (k.tail % k.size)) 64 = .ok dst → (Begun s vf q i 0).linkHeld = false →
    ∃ t, exec (.append vf q) s = .next t ∧ t.wq vf w = some { k with tail := k.tail + 1 }) ∧
  (∀ s vf q i b, Starts s vf q i b → cardByte b 0 = 3 → 2 ≤ fieldAt b 12 4 → (s.queue vf q).appending = none → ∀ as w src dst k,
    s.fwBytes (s.asnOf vf) false (fieldAt b 16 8) (64 * fieldAt b 12 4) = .ok as → w = cardByte b 8 → s.wq vf w = some k → k.tail - k.head + 1 = k.size →
    (∀ r ∈ k.line, r.push = false ∧ r.cmd = none) → k.head ≤ k.tail → s.slotsBad (s.asnOf vf) k (fieldAt b 12 4) = none →
    (Begun s vf q i 0).fwBytes (s.asnOf vf) false (fieldAt b 16 8) 64 = .ok src →
    (Begun s vf q i 0).fwBytes (s.asnOf vf) true (k.base + 64 * (k.tail % k.size)) 64 = .ok dst → (Begun s vf q i 0).linkHeld = false →
    ∃ t, exec (.append vf q) s = .next t ∧ get? (t.queue vf q).cmds i = some { bytes := b, started := true, by_ := (s.serverDie vf q).getD 4, step := 1 } ∧
      t.wq vf w = some { k with tail := k.tail + 1, line := k.line ++ [{ grp := 2 ^ 32, push := true, off := 0, mask := 0, cmd := some (q, i) }] }) ∧
  (∀ s vf q i c k w, (s.queue vf q).appending = some (i, c) → get? (s.queue vf q).cmds i = some c → s.fwGoesOn vf q c = true → w = cardByte c.bytes 8 →
    s.wq vf w = some k →
    (c.step < fieldAt c.bytes 12 4 → k.size ≤ k.tail - k.head → exec (.append vf q) s = .next (s.setWq vf w (if k.line.any (fun r => r.cmd == some (q, i))
      then k else { k with line := k.line ++ [{ grp := 2 ^ 32, push := true, off := 0, mask := 0, cmd := some (q, i) }] }))) ∧
    (fieldAt c.bytes 12 4 = c.step + 1 → k.tail - k.head < k.size → (∀ r ∈ k.line.takeWhile (fun r => r.cmd != some (q, i)), r.push = false) →
      s.linkHeld = false → ∀ src dst, s.fwBytes (s.asnOf vf) false (fieldAt c.bytes 16 8 + 64 * c.step) 64 = .ok src →
      s.fwBytes (s.asnOf vf) true (k.base + 64 * (k.tail % k.size)) 64 = .ok dst →
      ∃ t, exec (.append vf q) s = .next t ∧ t.wq vf w = some { k with tail := k.tail + 1, line := k.line.filter fun r => r.cmd != some (q, i) })) ∧
  (∀ s vf q i b, Starts s vf q i b → cardByte b 0 = 4 → exec (.copy vf q) s = .next (Begun s vf q i 0)) ∧
  (∀ s q i c src dst n, (s.queue 128 q).cmds.find? (fun e => e.2.started && e.2.status.isNone && !e.2.refused && cardByte e.2.bytes 0 == 4) = some (i, c) → s.fwGoesOn 128 q c = true →
    src = fieldAt c.bytes 8 8 → dst = fieldAt c.bytes 16 8 → n = fieldAt c.bytes 24 8 → src + n ≤ 0x9000000000 → dst + n ≤ 0x9000000000 →
    (src + n ≤ dst ∨ dst + n ≤ src) →
    ∃ t, ∃ u : State, exec (.copyComplete 128 q) s = .next t ∧ t = u.cmdDone 128 q i 0 ∧
      u = { s with mem := u.mem, spaces := u.spaces, dies := u.dies, fresh := u.fresh, mod_ := u.mod_ } ∧
      (∀ a, (dst ≤ a ∧ a < dst + n → AtHome s (.dev (src + (a - dst)) false) 0 (u.mem.dev.read a) ∨ Brought s (.dev a false) 0 (u.mem.dev.read a)) ∧
        (¬ (dst ≤ a ∧ a < dst + n) → AtHome s (.dev a false) 0 (u.mem.dev.read a))) ∧
      (NoneWait s → ∀ a, u.mem.dev.read a = if dst ≤ a ∧ a < dst + n then s.mem.dev.read (src + (a - dst)) else s.mem.dev.read a)) ∧
  (∀ s vf q i c a d, (s.queue vf q).cmds.find? (fun e => e.2.started && e.2.status.isNone && !e.2.refused && cardByte e.2.bytes 0 == 4) = some (i, c) →
    s.fwGoesOn vf q c = true → fieldAt c.bytes 24 8 = 1 → s.linkHeld = false →
    s.fwBytes (s.asnOf vf) false (fieldAt c.bytes 8 8) 1 = .ok [a] → s.fwBytes (s.asnOf vf) true (fieldAt c.bytes 16 8) 1 = .ok [d] → hostIn [a] = false →
    ∃ t, ∃ u : State, exec (.copyComplete vf q) s = .next t ∧ t = u.cmdDone vf q i 0 ∧
      u = { s with mem := u.mem, spaces := u.spaces, dies := u.dies, fresh := u.fresh, mod_ := u.mod_ } ∧ AtHome s a.tgt 0 (homeByteOf u d.tgt 0) ∧
      ∀ x m, d.tgt.at_ 0 ≠ x.at_ m → AtHome s x m (homeByteOf u x m)) ∧
  (∀ s vf q i b, Starts s vf q i b → cardByte b 0 = 5 → ∀ as, s.fwBytes (s.asnOf vf) true (fieldAt b 8 8) 8 = .ok as →
    exec (.signal vf q) s = .next (((((Begun s vf q i 0).fwSend (s.writerDie vf q) as).fwPut (s.asnOf vf) as (leBytes 8 (fieldAt b 16 8))).cmdDone vf q i 0).retestAll)) ∧
  (∀ (s : State) asn as bs, (as.map fun (a : Acc) => a.tgt.at_ 0).Nodup → (∀ a ∈ as, a.n = 1 ∧ a.tgt ≠ .zero) →
    ∀ (n : Nat) (a : Acc) (b : Byte), as[n]? = some a → bs[n]? = some b → homeByteOf (s.fwPut asn as bs) a.tgt 0 = b) ∧
  (∀ s vf q i b, Starts s vf q i b → cardByte b 0 = 6 → ∀ as w, s.fwBytes (s.asnOf vf) false (fieldAt b 8 8) 8 = .ok as →
    (Begun s vf q i 0).fwHeld (s.asnOf vf) false (fieldAt b 8 8) 8 = false →
    ∀ u, (Begun s vf q i 0).fwGet (s.writerDie vf q) vf q (fieldAt b 8 8) 8 = (some w, u) →
    exec (.wait vf q) s = .next (if fieldAt b 16 8 ≤ leNat w then u.cmdDone vf q i 0 else u)) ∧
  (∀ s vf q i c w, s.fwGoesOn vf q c = true →
    (s.queue vf q).cmds.find? (fun e => e.2.started && e.2.status.isNone && !e.2.refused && cardByte e.2.bytes 0 == 6) = some (i, c) →
    s.fwHeld (s.asnOf vf) false (fieldAt c.bytes 8 8) 8 = false → ∀ u, s.fwGet c.by_ vf q (fieldAt c.bytes 8 8) 8 = (some w, u) →
    exec (.waitRetest vf q) s = .next (if fieldAt c.bytes 16 8 ≤ leNat w then u.cmdDone vf q i 0 else u)) ∧
  (∀ s vf q i c a, s.fwGoesOn vf q c = true →
    (s.queue vf q).cmds.find? (fun e => e.2.started && e.2.status.isNone && !e.2.refused && cardByte e.2.bytes 0 == 6) = some (i, c) →
    s.fwBytes (s.asnOf vf) false (fieldAt c.bytes 8 8) 8 = .error a → exec (.waitRetest vf q) s = .next (s.cmdRefuse vf q i 0x0014 a 0)) ∧
  (∀ s vf q i b a, Starts s vf q i b → cardByte b 0 = 5 → s.fwBytes (s.asnOf vf) true (fieldAt b 8 8) 8 = .error a →
    exec (.signal vf q) s = .next ((s.takeTurn vf q).cmdRefuse vf q i 0x0014 a 0)) ∧
  (∀ s vf q i b n, Starts s vf q i b → cardByte b 0 = 7 → s.asnOf vf = some n →
    ∃ u : State, exec (.mark vf q) s = .next ((u.cmdBegin vf q i ((u.space n).gen % 2 ^ 32)).cmdDone vf q i 0) ∧ u = (s.takeTurn vf q).setSpace n (u.space n) ∧
      (u.space n).gen = (s.space n).gen + 1) ∧
  (∀ vf q, Acts (.studyArm vf q) vf q 8 (some 0) fun s b u => u = { s with cores := u.cores, studies := u.studies, groups := u.groups, dies := u.dies } ∧
    (∀ d, u.die d = { s.die d with count := (u.die d).count }) ∧ ∀ d c n v, d < 4 → n = fieldAt b 12 4 → v = BitVec.ofNat 64 (fieldAt b 24 8) →
      ((cardByte b 9 / 2 ^ d % 2 = 1 ∧ fieldAt b 16 8 / 2 ^ c % 2 = 1) →
        (c < 47 → 1 ≤ n → n ≤ 6 → u.core (64 * d + c) = { s.core (64 * d + c) with arm := put (s.core (64 * d + c)).arm n (v &&& armMask n) }) ∧
        (c < 47 → n = 0 → u.core (64 * d + c) = { s.core (64 * d + c) with arm := put (s.core (64 * d + c)).arm 0 (v &&& 0xFFFFFFFF0FFF1DFF) }) ∧
        (48 ≤ c → c ≤ 51 → (16 ≤ n → n ≤ 207 → (u.study (64 * d + c)).r n = if (n - 16) % 3 = 0 then v &&& 0xFFFFFFFF00FFFFF3 else v) ∧
          (n = 9 ∨ n = 10 → (u.study (64 * d + c)).r n = v ∧ (u.study (64 * d + c)).r 8 = 0 ∧ (u.study (64 * d + c)).r 11 = 0) ∧
          (n = 11 → (u.study (64 * d + c)).r 11 = BitVec.ofNat 64 (bits v 0 32)) ∧ (n = 12 → (u.study (64 * d + c)).r 12 = BitVec.ofNat 64 (bits v 0 20)))) ∧
      (c < 64 → ¬ (cardByte b 9 / 2 ^ d % 2 = 1 ∧ fieldAt b 16 8 / 2 ^ c % 2 = 1) →
        u.core (64 * d + c) = s.core (64 * d + c) ∧ u.study (64 * d + c) = s.study (64 * d + c))) ∧
  (∀ vf q, Acts (.studyMark vf q) vf q 8 (some 1) fun s b u => (s.namedGroup vf b = none → u = s) ∧
    ∀ k, s.namedGroup vf b = some k → (s.grp k).study.mark = none → (s.grp k).study.phase = 0 ∨ (s.grp k).study.phase = 4 →
      u = (s.msg (s.writerDie vf q) (dieOf (coreOf k))).setGrp k { s.grp k with study := { (s.grp k).study with mark := some 4 } }) ∧
  (∀ vf q, Acts (.studyReturn vf q) vf q 8 (some 2) fun s b u => (s.namedGroup vf b = none → u = s) ∧
    ∀ k, s.namedGroup vf b = some k → (s.grp k).study.phase = 2 →
      ((s.grp k).waitMask (· == .stop) ≠ 0 →
        u = (s.msg (s.writerDie vf q) (dieOf (coreOf k))).setGrp k { goOnFrom (s.grp k) (· == .stop) with
          study := { (s.grp k).study with phase := 3, reason := if (s.grp k).study.due = some 9 then 9 else 4, due := none } }) ∧
      ((s.grp k).waitMask (· == .stop) = 0 → (s.grp k).study.due = none →
        u = (s.msg (s.writerDie vf q) (dieOf (coreOf k))).setGrp k { s.grp k with study := { (s.grp k).study with due := some 4 } })) ∧
  (∀ vf q, Acts (.studyResume vf q) vf q 8 (some 3) fun s b u => (s.namedGroup vf b = none → u = s) ∧
    ∀ k, s.namedGroup vf b = some k → u = (s.msg (s.writerDie vf q) (dieOf (coreOf k))).setGrp k (goOnFrom (s.grp k) (· == .stop))) ∧
  (∀ vf q, Acts (.inval vf q) vf q 9 none fun s b u => u = { s with dies := u.dies, cores := u.cores } ∧
    let hit (e : TlbEnt) : Prop := e.asn = (s.asnOf vf).getD 0 ∧ (fieldAt b 16 8 = 0 ∨
      (e.page * 2 ^ levelShift e.level < fieldAt b 8 8 + fieldAt b 16 8 ∧ fieldAt b 8 8 < (e.page + 1) * 2 ^ levelShift e.level))
    (∀ d, u.die d = { s.die d with tlb := (u.die d).tlb, count := (u.die d).count } ∧ ∀ e, e ∈ (u.die d).tlb ↔ e ∈ (s.die d).tlb ∧ ¬ hit e) ∧
    ∀ c, u.core c = { s.core c with tlb := (u.core c).tlb } ∧ ∀ e, e ∈ (u.core c).tlb ↔ e ∈ (s.core c).tlb ∧ ¬ hit e) ∧
  (∀ s vf q i b k p, Starts s vf q i b → cardByte b 0 = 10 → cardByte b 8 < 4 → cardByte b 9 < 64 → cardByte b 10 < 128 →
    s.groups.find? (fun e => e.2.live && (s.grid e.2.grid).vf == vf && e.2.park.elim false fun p =>
      p.sent && p.ans.isNone && p.loc == (cardByte b 8 * 64 + cardByte b 9) * 128 + cardByte b 10 && p.serial == fieldAt b 12 2) = some (k, s.grp k) →
    (s.grp k).park = some p → p.takes (cardByte b 11) = true →
    exec (.answer vf q) s = .next ((((Begun s vf q i 0).msg (s.writerDie vf q) (dieOf (coreOf k))).answerGroup k p (cardByte b 11)
      (BitVec.ofNat 64 (fieldAt b 16 8)) (BitVec.ofNat 64 (fieldAt b 24 8))).cmdDone vf q i 0)) ∧
  (∀ (s : State) k p r0 r1, (s.grp k).frames ≠ [] → p.depth = (s.grp k).fdepth →
    let t := s.answerGroup k p 0 r0 r1
    t = s.setGrp k (t.grp k) ∧ (t.grp k).park = none ∧ (t.grp k).lanes = (s.grp k).lanes ∧ ∀ r, (t.grp k).sreg r =
      if r = 0 then ⟨r0, false⟩ else if r = 1 then ⟨r1, false⟩ else (s.grp k).sreg r) ∧
  (∀ (s : State) k p r0 r1 st, Stays s k → (st = 1 ∨ st = 2) → let t := s.answerGroup k p st r0 r1
    t = s.setGrp k (t.grp k) ∧ (t.grp k).park = none ∧ (t.grp k).replay = (if st = 2 then none else p.ops) ∧ (p.stays = true → (t.grp k).lanes = (s.grp k).lanes) ∧
      (p.stays = false → ∀ l, l < 64 → pcOf (t.grp k).lanes.pc l =
        if has p.mask l then p.pc + (if st = 2 then BitVec.ofNat 64 p.len else 0) else pcOf (s.grp k).lanes.pc l)) ∧
  (∀ s vf q i b, Starts s vf q i b → cardByte b 0 = 10 → cardByte b 10 < 128 → (∀ e ∈ s.groups, e.2.park = none) →
    (∀ e ∈ s.teams, e.2.savedGroups = []) → exec (.answer vf q) s = .next ((Begun s vf q i 0).cmdDone vf q i 4)) ∧
  (∀ vf q, Acts (.vfconfTrapVector vf q) vf q 11 (some 0) fun s b u => VfBecomes s u vf fun v => { v with vector := BitVec.ofNat 64 (fieldAt b 16 8) }) ∧
  (∀ vf q, Acts (.vfconfServiceRing vf q) vf q 11 (some 1) fun s b u => (s.vf vf).svc.held = [] →
    VfBecomes s u vf fun v => { v with svc := { base := fieldAt b 16 8, size := fieldAt b 24 4, set := true } }) ∧
  (∀ vf q, vf ≠ 128 → Acts (.vfconfErrorRing vf q) vf q 11 (some 2) fun s b u => (s.vf vf).err.held = [] →
    VfBecomes s u vf fun v => { v with err := { base := fieldAt b 16 8, size := fieldAt b 24 4, set := true } }) ∧
  (∀ vf q, Acts (.vfconfPriorityCap vf q) vf q 11 (some 3) fun s b u => VfBecomes s u (cardByte b 9) fun v => { v with maxprio := cardByte b 10 }) ∧
  (∀ vf q, Acts (.vfconfSliceLength vf q) vf q 11 (some 4) fun s b u =>
    u = s.setPart (cardByte b 9) { s.part (cardByte b 9) with slice := fieldAt b 24 4 }) ∧
  (∀ vf q, Acts (.vfconfAddressSpace vf q) vf q 11 (some 5) fun s b u => (u.vf (cardByte b 9)).asn = some (fieldAt b 12 4) ∧
    (u.space (fieldAt b 12 4)).root = some (fieldAt b 16 8) ∧ ((s.vf (cardByte b 9)).asn = none → u.mem = s.mem) ∧
    (∀ m, (s.vf (cardByte b 9)).asn = some m → m ≠ fieldAt b 12 4 → Wiped s u m) ∧
    ((s.space (fieldAt b 12 4)).root ≠ some (fieldAt b 16 8) → (∀ d, ∀ e ∈ (u.die d).tlb, e.asn ≠ fieldAt b 12 4) ∧ ∀ c, ∀ e ∈ (u.core c).tlb, e.asn ≠ fieldAt b 12 4)) ∧
  (∀ vf q, Acts (.vfconfPartition vf q) vf q 11 (some 6) fun s b u => (u.vf (cardByte b 9)).part = cardByte b 10 ∧
    ((s.vf (cardByte b 9)).asn = none → VfBecomes s u (cardByte b 9) fun v => { v with part := cardByte b 10 }) ∧
    ∀ m, (s.vf (cardByte b 9)).asn = some m → (s.vf (cardByte b 9)).part ≠ cardByte b 10 → Wiped s u m) ∧
  (∀ s vf q i b u n, Starts s vf q i b → cardByte b 0 = 11 → cardByte b 8 = 7 → s.asnOf vf = some n →
    (s.takeTurn vf q).pantryAlloc vf (fieldAt b 16 8) (fieldAt b 24 4) = .ok u →
    exec (.vfconfPantryAllocate vf q) s = .next ((u.cmdBegin vf q i 0).cmdDone vf q i 0) ∧
      ∃ fs, get? (u.space n).regions (fieldAt b 16 8) = some { size := fieldAt b 24 4 * 786432, items := [], frames := fs } ∧
        fs.length = 12 * fieldAt b 24 4 ∧ ∀ f ∈ fs, f ∈ u.mod2.taken ∧ f ∉ s.mod2.taken ∧ f ∉ s.mod2.wiping) ∧
  (∀ vf q, Acts (.vfconfPantryFree vf q) vf q 11 (some 8) fun s b u => ∀ n r, s.asnOf vf = some n → get? (s.space n).regions (fieldAt b 16 8) = some r →
    (∀ p ∈ s.preqs, p.2.st ≠ 2) →
    get? (u.space n).regions (fieldAt b 16 8) = none ∧ u.mod2.wiping = s.mod2.wiping ++ r.frames ∧ u.mod2.taken = s.mod2.taken) ∧
  (∀ s vf q i b, Starts s vf q i b → cardByte b 0 = 12 → cardByte b 9 = 0 →
    ∃ t, ∃ u : State, exec (.wqconfCreate vf q) s = .next t ∧ VfBecomes (Begun s vf q i 0) u vf (fun v =>
      { v with wqs := put v.wqs (cardByte b 8) { base := fieldAt b 16 8, size := fieldAt b 12 4, head := 0, tail := 0, line := [] } }) ∧
      t = u.cmdDone vf q i 0) ∧
  (∀ s vf q i b, Starts s vf q i b → cardByte b 0 = 12 → cardByte b 9 = 1 →
    ∃ t, ∃ u : State, exec (.wqconfDestroy vf q) s = .next t ∧ VfBecomes (Begun s vf q i 0) u vf (fun v => { v with wqs := drop v.wqs (cardByte b 8) }) ∧
      t = u.cmdDone vf q i 0) ∧
  (∀ vf q, Refuses (.launchCmd vf q) vf q 1 none ∧ Refuses (.relaunch vf q) vf q 2 none ∧ Refuses (.copy vf q) vf q 4 none ∧
    Refuses (.signal vf q) vf q 5 none ∧ Refuses (.wait vf q) vf q 6 none ∧ Refuses (.mark vf q) vf q 7 none ∧ Refuses (.inval vf q) vf q 9 none ∧
    Refuses (.answer vf q) vf q 10 none ∧ Refuses (.vfconfTrapVector vf q) vf q 11 (some 0)) ∧
  (∀ (s : State) vf q i st c, get? (s.queue vf q).cmds i = some c → c.status = none → (s.queue vf q).cb.done = i → get? (s.queue vf q).cmds (i + 1) = none →
    (s.queue vf q).cb.tail ≤ (s.queue vf q).cb.head →
    ((s.cmdDone vf q i st).queue vf q).cb.done = i + 1 ∧ get? ((s.cmdDone vf q i st).queue vf q).cmds i = none)

/-- R6, R75, R292, R361, R362, R364, R365, R375, R388, R391, R393, R394, R402 to R404, R429, R461 to R464,
R471, R472: what the host writes. Each named event is the register write at its offset, and does what the
register says; the aperture moves bytes; the link and the ports receive. The model's choices here: what waits
while the link retrains (LOG 37), the markers of a cut that has not begun count when it begins (LOG 80), ACK
equals the count of records produced when a control block is taken (LOG 85), and that WEARLIM is stored at
once (LOG 102). -/
def Obligations.RegisterEvents : Prop :=
  (∀ vf q v, q < 16 → vf ≤ 128 → SameWrite (.doorbell vf q v) vf (8 * q) v ∧ SameWrite (.qcbaddr vf q v) vf (0x200 + 8 * q) v ∧
    SameWrite (.svccons vf v) vf 0x408 v ∧ SameWrite (.errcons vf v) vf 0x428 v ∧
    (bits v 0 2 = 0 → SameWrite (.exansAcknowledge vf q (v.extractLsb' 32 32)) vf (0x600 + 8 * q) v) ∧
    (bits v 0 2 = 1 → SameWrite (.exansResume vf q (v.extractLsb' 32 32)) vf (0x600 + 8 * q) v) ∧
    (bits v 0 2 = 2 → SameWrite (.exansSkip vf q (v.extractLsb' 32 32)) vf (0x600 + 8 * q) v) ∧
    (bits v 0 2 = 3 → SameWrite (.exansAbort vf q (v.extractLsb' 32 32)) vf (0x600 + 8 * q) v)) ∧
  (∀ v, SameWrite (.pfErrorRingSet false v) 128 0x100D20 v ∧ SameWrite (.pfErrorRingSet true v) 128 0x100D28 v ∧ SameWrite (.pferrcons v) 128 0x100D38 v ∧
    (bits v 0 2 = 1 → SameWrite (.cut (v.extractLsb' 32 32)) 128 0x100C00 v) ∧ (bits v 0 2 = 2 → SameWrite (.cutResume (v.extractLsb' 32 32)) 128 0x100C00 v) ∧
    ∀ n : Fin 16, SameWrite (.partWrite n v) 128 (0x100000 + 8 * n.val) v) ∧
  (∀ s vf q v, s.mmio = true → q < 16 → vf ≤ 128 → s.fwServes vf q = true → (s.queue vf q).cb.enabled = true → (s.queue vf q).cb.tail ≤ v.toNat →
    v.toNat ≤ (s.queue vf q).cb.done + (s.queue vf q).cb.size → ∃ t, exec (.doorbell vf q v) s = .next t ∧ (t.queue vf q).cb.tail = v.toNat) ∧
  (∀ s vf q v, s.mmio = true → q < 16 → vf ≤ 128 → s.fwServes vf q = false →
    exec (.doorbell vf q v) s = .next (s.setQueue vf q { s.queue vf q with latched := some v })) ∧
  (∀ s vf q, s.mmio = true → q < 16 → vf ≤ 128 → ((s.queue vf q).cb.enabled = false ∨ (s.queue vf q).cb.tail ≤ (s.queue vf q).cb.done) →
    exec (.qcbaddr vf q 0) s = .next ((s.tellServer vf q).setQueue vf q { held := (s.queue vf q).held })) ∧
  (∀ s vf q v bs, s.mmio = true → q < 16 → vf ≤ 128 → ((s.queue vf q).cb.enabled = false ∨ (s.queue vf q).cb.tail ≤ (s.queue vf q).cb.done) → v ≠ 0 →
    s.fwRead (s.asnOf vf) v.toNat 64 = some bs → (s.queue vf q).held = [] →
    let b := Qcb.ofBytes bs
    b.base % 64 = 0 → b.exbase % 64 = 0 → (∃ e, 4 ≤ e ∧ e ≤ 16 ∧ b.size = 2 ^ e) → (∃ e, 4 ≤ e ∧ e ≤ 12 ∧ b.exsize = 2 ^ e) → b.tail ≤ b.done →
    ∃ t, exec (.qcbaddr vf q v) s = .next t ∧ (t.queue vf q).addr = v ∧ (t.queue vf q).ack = b.exprod ∧ (t.queue vf q).cmds = [] ∧
      (t.queue vf q).cb = { b with head := b.done, enabled := true, stopped := false, seq := b.seq + 2 } ∧ (t.queue vf q).shadow = (t.queue vf q).cb) ∧
  (∀ s vf v, s.mmio = true → vf ≤ 128 → (s.vf vf).svc.held = [] →
    exec (.svccons vf v) s = .next (s.setVf vf { s.vf vf with svc := { (s.vf vf).svc with cons := v.toNat } })) ∧
  (∀ s vf v, s.mmio = true → vf < 128 → (s.vf vf).err.held = [] →
    exec (.errcons vf v) s = .next (s.setVf vf { s.vf vf with err := { (s.vf vf).err with cons := v.toNat } })) ∧
  (∀ s v, s.mmio = true → exec (.errcons 128 v) s = .next s) ∧
  (∀ s vf q ack, s.mmio = true → q < 16 → vf ≤ 128 → (s.queue vf q).held = [] → (s.queue vf q).cb.exprod < 2 ^ 32 →
    let u := (s.tellServer vf q).setQueue vf q { s.queue vf q with ack := max (s.queue vf q).ack ack.toNat }
    exec (.exansAcknowledge vf q ack) s = .next u ∧
    ((s.queue vf q).cb.stopped = true → ∀ i c, (s.queue vf q).refusedCmd = some (i, c) →
      exec (.exansSkip vf q ack) s = .next ((u.unstopBut vf q i).cmdDone vf q i 2) ∧
      ∀ bs w, u.fwGet (s.writerDie vf q) vf q ((s.queue vf q).slotAddr i) 64 = (some bs, w) → exec (.exansResume vf q ack) s =
        .next (((w.setQueue vf q { w.queue vf q with cmds := put (w.queue vf q).cmds i { bytes := bs } }).unstopBut vf q i).fetchCmds vf q)) ∧
    (∀ i, u.unstopBut vf q i = if (s.queue vf q).cmds.any (fun e => e.1 != i && e.2.refused && e.2.status.isNone) then u else u.unstopQueue vf q) ∧
    ((s.queue vf q).cb.stopped = false → exec (.exansAbort vf q ack) s = .next u ∧ exec (.exansSkip vf q ack) s = .next u ∧
      exec (.exansResume vf q ack) s = .next u) ∧
    ((s.queue vf q).cb.stopped = true → ∀ i c, (s.queue vf q).refusedCmd = some (i, c) → (s.queue vf q).cb.tail = i + 1 → (s.queue vf q).cb.done = i →
      get? (s.queue vf q).cmds i = some c → get? (s.queue vf q).cmds (i + 1) = none →
      ∃ t, exec (.exansAbort vf q ack) s = .next t ∧ (t.queue vf q).cb.done = i + 1 ∧ get? (t.queue vf q).cmds i = none)) ∧
  (∀ s size v, s.mmio = true → s.mod2.pfErr.held = [] → let r := s.mod2.pfErr
    ∃ t, exec (.pfErrorRingSet size v) s = .next t ∧ t = { s with mod2 := { s.mod2 with pfErr := t.mod2.pfErr } } ∧ t.mod2.pfErr.prod = 0 ∧ t.mod2.pfErr.cons = 0 ∧
      t.mod2.pfErr.base = (if size then r.base else v.toNat) ∧ t.mod2.pfErr.size = (if size then v.toNat else r.size)) ∧
  (∀ s v, s.mmio = true → s.mod2.pfErr.held = [] →
    exec (.pferrcons v) s = .next { s with mod2 := { s.mod2 with pfErr := { s.mod2.pfErr with cons := v.toNat } } }) ∧
  (∀ s id, s.mmio = true → s.mod_.cutState = 0 → s.grids = [] → (∀ m ∈ s.mod2.markers, m.2 ≠ id) →
    ∃ t, exec (.cut id) s = .next t ∧ t.mod_.cutId = id ∧ t.mod_.cutState = (if s.mod2.ports = [] then 2 else 1) ∧
      (t.die 4).count = (s.die 4).count + BitVec.ofNat 64 s.mod2.ports.length ∧ t.mem = s.mem) ∧
  (∀ s id, s.mmio = true → s.mod_.cutState = 2 → s.grids = [] →
    exec (.cutResume id) s = .next { s with mod_ := { s.mod_ with cutId := id, cutState := 0 }, mod2 := { s.mod2 with markers := [] } }) ∧
  (∀ s (n : Fin 16) v, s.mmio = true → s.teams = [] → s.grids = [] → (∀ lo ∈ [0, 10, 20, 30], bits v lo 5 + bits v (lo + 5) 5 ≤ 16) →
    (∀ e ∈ s.parts, e.1 = n.val) → (∀ e ∈ s.vfs, e.2.part = n.val → e.2.asn = none) → exec (.partWrite n v) s = .next (s.setPart n.val { s.part n.val with reg := BitVec.ofNat 64 (v.toNat % 2 ^ 41) })) ∧
  (∀ s v, s.mmio = true → (∀ n, n < 16 → exec (.registerWrite 128 (0x100080 + 8 * n) v) s = .next (s.setPart n { s.part n with colour := v })) ∧
    (∀ n, n < 128 → ∃ t, exec (.registerWrite 128 (0x100400 + 16 * n) v) s = .next t ∧ VfBecomes s t n fun x => { x with quota0 := v &&& 0x01FFFFFFFFFFE07F }) ∧
    (∀ n, n < 128 → ∃ t, exec (.registerWrite 128 (0x100408 + 16 * n) v) s = .next t ∧ VfBecomes s t n fun x => { x with quota1 := v &&& 0x7FFFFFFFFF }) ∧
    exec (.registerWrite 128 0x100C10 v) s = .next { s with mod_ := { s.mod_ with cutMask0 := v } } ∧
    exec (.registerWrite 128 0x100C18 v) s = .next { s with mod_ := { s.mod_ with cutMask1 := v } } ∧
    (∀ n, n < 16 → exec (.registerWrite 128 (0x100C40 + 8 * n) v) s = .next (s.setPart n { s.part n with wdog := v &&& 0x01FFFFFF0000FFFF })) ∧
    exec (.registerWrite 128 0x100D08 v) s = .next { s with mod_ := { s.mod_ with nv := { s.mod_.nv with wearlim := v } } } ∧
    (∀ vf, vf < 128 → ∃ t, exec (.registerWrite vf 0x430 v) s = .next t ∧ VfBecomes s t vf fun x => { x with c0 := v.getLsbD 0 })) ∧
  (∀ s vf va data as, s.mmio = true → s.fwBytes (s.asnOf vf) true va.toNat data.length = .ok as → (as.map fun (a : Acc) => a.tgt.at_ 0).Nodup →
    ∃ t, exec (.hostApertureWrite vf va data) s = .next t ∧
      t = { s with mem := t.mem, dies := t.dies, spaces := t.spaces, fresh := t.fresh, mod_ := t.mod_ } ∧ t.mod_ = { s.mod_ with link := t.mod_.link } ∧
      (∀ (n : Nat) (a : Acc) (b : Byte), as[n]? = some a → data[n]? = some b → homeByteOf t a.tgt 0 = b) ∧
      (∀ (x : Tgt) i, (∀ a ∈ as, a.tgt.at_ 0 ≠ x.at_ i) → AtHome s x i (homeByteOf t x i))) ∧
  (∀ s vf va n as, s.mmio = true → s.fwBytes (s.asnOf vf) false va.toNat n = .ok as →
    ∃ t a, exec (.hostApertureRead vf va n) s = .next t ∧ t = { s with dies := t.dies, mod_ := t.mod_, mem := t.mem, fresh := t.fresh } ∧
      t.mod_ = { s.mod_ with link := t.mod_.link } ∧ (∀ d, t.die d = { s.die d with visitors := (t.die d).visitors, count := (t.die d).count }) ∧
      t.mod_.link.answers = s.mod_.link.answers ++ [a] ∧ a.bytes.length = n ∧
      (∀ (i : Nat) (x : Acc), as[i]? = some x → a.bytes.getD i 0 = homeByteOf s x.tgt 0) ∧
      (a.mark = .sound ∨ a.mark = .poison) ∧ (s.mem.devPx = [] → a.mark = .sound)) ∧
  (∀ s vf va n v, s.mmio = true → vf < 128 → s.linkUp = true → s.fwBytes (s.asnOf vf) false va.toNat n = .error v → (s.vf vf).err.set = false →
    ∃ t u r a, exec (.hostApertureRead vf va n) s = .next t ∧ VfBecomes s u vf (fun x => { x with err := { x.err with held := x.err.held ++ [Rec.bytes r] } }) ∧
      r.kind = 0x0015 ∧ r.cls = 2 ∧ r.addr = va.toNat ∧ r.vf = vf ∧ t = { u with mod_ := t.mod_ } ∧ t.mod_ = { s.mod_ with link := t.mod_.link } ∧
      t.mod_.link.answers = s.mod_.link.answers ++ [a] ∧ a.bytes = [] ∧ a.mark = .refused) ∧
  (∀ s flit crcOk tagOk key, s.mod_.link.state = 3 ∨ flit ≠ s.mod_.link.expect → exec (.linkFlitReceive flit crcOk tagOk key) s = .next s) ∧
  (∀ s key, s.mod_.link.state ≠ 3 → (if key then s.mod_.link.keys.2 else s.mod_.link.keys.1) = true →
    exec (.linkFlitReceive s.mod_.link.expect true true key) s =
      .next { s with mod_ := { s.mod_ with link := { s.mod_.link with expect := s.mod_.link.expect + 1, nak := false, tagFails := 0 } } }) ∧
  (∀ s tagOk key, s.mod_.link.state ≠ 3 → ∃ t, exec (.linkFlitReceive s.mod_.link.expect false tagOk key) s = .next t ∧
    t.mod_.link = { s.mod_.link with crc := min (s.mod_.link.crc + 1) (2 ^ 24 - 1), nak := true } ∧
    t = { s with mod_ := { s.mod_ with link := t.mod_.link }, mod2 := { s.mod2 with pferrc0 := Counted s } }) ∧
  (∀ s key, s.mod_.link.state ≠ 3 → (if key then s.mod_.link.keys.2 else s.mod_.link.keys.1) = true → s.mod_.link.tagFails < 2 →
    ∃ t, exec (.linkFlitReceive s.mod_.link.expect true false key) s = .next t ∧
      t.mod_.link = { s.mod_.link with crc := min (s.mod_.link.crc + 1) (2 ^ 24 - 1), nak := true, tagFails := s.mod_.link.tagFails + 1 } ∧
      t = { s with mod_ := { s.mod_ with link := t.mod_.link }, mod2 := { s.mod2 with pferrc0 := Counted s } }) ∧
  (∀ s tagOk key, s.mod_.link.state ≠ 3 →
    ((if key then s.mod_.link.keys.2 else s.mod_.link.keys.1) = false ∨ tagOk = false ∧ 2 ≤ s.mod_.link.tagFails) →
    ∃ t, exec (.linkFlitReceive s.mod_.link.expect true tagOk key) s = .next t ∧ AfterReset t) ∧
  (∀ s flit n, s.mod_.link.state ≠ 3 → (∃ k, (flit, k) ∈ s.mod_.link.buffer) →
    n = (if s.mod_.link.fails.1 = flit then s.mod_.link.fails.2 + 1 else 1) →
    (n < 8 → exec (.linkNakReceive flit) s = .next { s with mod_ := { s.mod_ with link := { s.mod_.link with
      replay := min (s.mod_.link.replay + 1) (2 ^ 16 - 1), fails := (flit, n), state := if s.mod_.link.state = 0 then 1 else s.mod_.link.state } } }) ∧
    (8 ≤ n → ∃ t, exec (.linkNakReceive flit) s = .next t ∧ t.mod_.link.state = 2 ∧
      t.mod_.link.retrain = min (s.mod_.link.retrain + 1) (2 ^ 16 - 1) ∧ t.mod2.pferrc0 = Counted s)) ∧
  (∀ s flit, s.mod_.link.state ≠ 3 → flit < s.mod_.link.sent → s.mod_.link.held = 0 → ∃ t, exec (.linkAckReceive flit) s = .next t ∧
    t = { s with mod_ := { s.mod_ with link := t.mod_.link } } ∧ t.mod_.link.buffer = s.mod_.link.buffer.filter (fun b => decide (flit < b.1)) ∧
    t.mod_.link.sent = s.mod_.link.sent ∧ t.mod_.link.held = 0 ∧
    (∀ r, s.mod_.link.roll = some r → r ≤ flit → t.mod_.link.keypend = false ∧ t.mod_.link.roll = none ∧
      t.mod_.link.keys = (if s.mod_.link.actkey then (false, s.mod_.link.keys.2) else (s.mod_.link.keys.1, false))) ∧
    (s.mod_.link.roll = none → t.mod_.link.keys = s.mod_.link.keys ∧ t.mod_.link.keypend = s.mod_.link.keypend)) ∧
  (∀ s flit, s.mod_.link.state = 0 → flit < s.mod_.link.sent →
    let left := s.mod_.link.buffer.filter fun b => decide (flit < b.1)
    let n := min s.mod_.link.held (128 - left.length)
    ∃ t, exec (.linkAckReceive flit) s = .next t ∧ t.mod_.link.sent = s.mod_.link.sent + n ∧ t.mod_.link.held = s.mod_.link.held - n ∧
      t.mod_.link.buffer.length = left.length + n ∧ ∀ b ∈ left, b ∈ t.mod_.link.buffer) ∧
  (∀ s, s.mod_.link.state < 2 → s.mod_.link.buffer ≠ [] → ∃ t, exec .linkAckTimeout s = .next t ∧ t.mod_.link.state = 2 ∧
    t.mod_.link.retrain = min (s.mod_.link.retrain + 1) (2 ^ 16 - 1) ∧ t.mod_.link.buffer = s.mod_.link.buffer ∧ t.mod2.pferrc0 = Counted s) ∧
  (∀ s, s.mod_.link.state = 2 → s.mod_.link.held = 0 →
    (let u : State := { s with mod_ := { s.mod_ with link := { s.mod_.link with state := if s.mod_.link.buffer = [] then 0 else 1 } }
                               mem := { s.mem with host := s.mem.late.foldl (fun m b => m.write b.1 b.2) s.mem.host, late := [] } }
     exec (.linkRetrainComplete .stored) s = .next u.flushAll.serveQueues ∧
     (s.vfs = [] → s.mod2.pfErr.held = [] → u.flushAll.serveQueues = u)) ∧
    (s.vfs = [] → s.mod2.pfErr.held = [] → ∃ t, exec (.linkRetrainComplete .full) s = .next t ∧ t.mod_.link = { s.mod_.link with state := if s.mod_.link.buffer = [] then 0 else 1 } ∧
      get? t.mod_.nv.results 0 = some (Config.trainResult s.fresh) ∧ t.mod_.fallbk = min 255 (s.mod_.fallbk + 1) ∧ t.mod2.pferrc0 = Counted s) ∧
    ∃ t, exec (.linkRetrainComplete .failed) s = .next t ∧ AfterReset t) ∧
  (∀ s, s.mod_.link.keypend = false → s.mod_.link.state < 2 → s.mod_.link.buffer.length < 128 →
    exec .keyRollover s = .next { s with mod_ := { s.mod_ with link := { s.mod_.link with
      keys := (true, true), actkey := !s.mod_.link.actkey, keypend := true, roll := some s.mod_.link.sent
      buffer := s.mod_.link.buffer ++ [(s.mod_.link.sent, !s.mod_.link.actkey)], sent := s.mod_.link.sent + 1 } } }) ∧
  (∀ s port id, port ∈ s.mod2.ports → (port, id) ∉ s.mod2.markers → s.mod_.cutState = 0 →
    exec (.shutonMarkerReceive port id) s =
      .next { s.peerIn with mod2 := { s.mod2 with markers := s.mod2.markers ++ [(port, id)] } }) ∧
  (∀ s id port, s.mod_.cutState = 1 → s.mod_.cutId = id → s.grids = [] → s.mod2.ports = [port] → s.mod2.markers = [] →
    ∃ t, exec (.shutonMarkerReceive port id) s = .next t ∧ t.mod_.cutState = 2)

/-- R377 to R383, R401, R406, R407, R434, R436, R441 to R443, R447, R466 to R471: the start, power, wear, the patrol, what damage does, and the
firmware cores. The model's readings here: the training results are free values (LOG 115); what a module reset keeps (LOG 84); that damage is an event
of the agenda (LOG 114, 117); the image that recovery mode has written becomes image A (LOG 122); the unit number of a failed link is 0 (LOG 38); the
record of a damaged sector has the lowest virtual address that maps it (LOG 82); a VF stays contained until a queue of it is set anew or runs again
(LOG 143). -/
def Obligations.ModuleEvents : Prop :=
  (∀ s, (s.mod_.powered = false → ∃ t, exec .powerGood s = .next t ∧ AfterReset t ∧ t.mod_.nv = s.mod_.nv ∧ t.mem.host = s.mem.host) ∧
    ∃ t, exec .moduleReset s = .next t ∧ AfterReset t ∧ t.mod_.nv = s.mod_.nv ∧ t.mem.host = s.mem.host) ∧
  (∀ s image okB, s.mod_.stage = 0 → s.mod_.verified = false → s.mod_.nv.newImage = image → image ≠ [] →
    ∃ t, exec (.imageVerified true okB) s = .next t ∧ t.mod_.verified = true ∧ t.mod_.img = 0 ∧ t.mod_.nv = { s.mod_.nv with imageA := image, newImage := [] }) ∧
  (∀ s okB, s.mod_.stage = 0 → s.mod_.verified = false → s.mod_.nv.newImage = [] →
    exec (.imageVerified true okB) s = .next { s with mod_ := { s.mod_ with verified := true, img := 0 } } ∧
    (∃ t, exec (.imageVerified false true) s = .next t ∧ t.mod_.verified = true ∧ t.mod_.img = 1 ∧ t.mod_.stage = 0 ∧ t.mod2.pferrc0 = Counted s) ∧
    exec (.imageVerified false false) s = .next { s with mod_ := { s.mod_ with img := 2, stage := 15 } }) ∧
  (∀ s stk, s.mod_.stage = 0 → s.mod_.verified = true → (∀ x ∈ stk, x = .stored) → s.mod_.nv.retired = [] → s.mod_.dieOff = 0 →
    ∃ t, exec (.safeFunction .stored stk) s = .next t ∧ t.mod_.stage = 1 ∧ (t.die 0).inService = true ∧ (∀ c, c < 48 → (t.core c).up = true) ∧
      (∀ i, i < 17 → (get {} t.mod_.wear i).pcyc = min ((get {} s.mod_.wear i).pcyc + 1) (2 ^ 20 - 1)) ∧ t.mod_.nv.kept = [] ∧
      ∀ a, t.mem.dev.read a = if a / 65536 < 0x180000 then 0 else s.mem.dev.read a) ∧
  (∀ s stk, s.mod_.stage = 0 → s.mod_.verified = true → ∃ t r, exec (.safeFunction .failed stk) s = .next t ∧ t.mod_.stage = 15 ∧
    t.mod_.nv.kept = s.mod_.nv.kept ++ [Rec.bytes r] ∧ r.cls = 2 ∧ r.kind = 0x0010 ∧ r.aux = 0) ∧
  (∀ s stk ports, s.mod_.stage = 1 → (∀ x ∈ stk, x = .stored) → (∀ x ∈ ports, x = .stored) → s.mod_.nv.retired = [] →
    ∃ t, exec (.fullFunction stk ports) s = .next t ∧ t.mod_.stage = 2 ∧ t.mod2.ports = s.mod2.ports ++ List.range 18 ∧
      (∀ d, d < 4 → s.mod_.dieOff.getLsbD d = false → (t.die d).inService = true) ∧
      (s.vfs = [] → ∀ d a, d < 4 → s.mod_.dieOff.getLsbD d = false → (s.die d).inService = false → (dieFrames d).1 ≤ a / 65536 →
        a / 65536 ≤ (dieFrames d).2 → t.mem.dev.read a = 0)) ∧
  (∀ (s : State) u, (s.trained u .stored = s) ∧ s.trained u .failed = s ∧ get? (s.trained u .full).mod_.nv.results u = some (Config.trainResult s.fresh) ∧
    ∀ v, v ≠ u → get? (s.trained u .full).mod_.nv.results v = get? s.mod_.nv.results v) ∧
  (∀ s image, s.mod_.stage = 15 → exec (.recoveryImageWrite image) s = .next { s with mod_ := { s.mod_ with nv := { s.mod_.nv with newImage := image } } }) ∧
  (∀ s, ∃ t, exec .orderlyPowerDown s = .next t ∧ t.mod_.powered = false ∧ t.mod_.nv = { s.mod_.nv with wear := s.mod_.wear } ∧ t.mem.dev = [] ∧ t.groups = []) ∧
  (∀ s, ∃ t, exec .powerLoss s = .next t ∧ t.mod_.powered = false ∧ t.mod_.nv = s.mod_.nv ∧ t.mem.dev = [] ∧ t.groups = []) ∧
  (∀ s temps, ∃ t, exec (.thermalSample temps) s = .next t ∧ t = { s with mod_ := { s.mod_ with wear := t.mod_.wear } } ∧
    ∀ i, i < 17 → match temps[i]? with
      | some x => Sampled (get {} s.mod_.wear i) (get {} t.mod_.wear i) x
      | none => get {} t.mod_.wear i = get {} s.mod_.wear i) ∧
  (∀ s, ∃ t, exec .wearHourlyWrite s = .next t ∧ t.mod_.nv.wear = t.mod_.wear ∧ ∀ i, i < 17 →
    get {} t.mod_.wear i = { get {} s.mod_.wear i with hours := min ((get {} s.mod_.wear i).hours + 1) (2 ^ 24 - 1) }) ∧
  (∀ s sector, sector * 32 < 0x9000000000 → sector ∉ s.mem.devPx → let f := sector / 2048
    ∃ t, exec (.patrolScrub (.hbm sector) true) s = .next t ∧
      ((s.mod_.nv.retired.filter fun r => r.1 == stackOf (sector * 32)).length < 4096 → (stackOf (sector * 32), f) ∈ t.mod_.nv.retired) ∧
      (s.mappers false (sector * 32) = [] → s.tableOwner f = none → s.shelfFrame f = false → ∀ a, t.mem.dev.read a = if a / 65536 = f then 0 else s.mem.dev.read a) ∧
      (s.mappers false (sector * 32) ≠ [] → sector ∈ t.mem.devPx ∧ t.mem.dev = s.mem.dev) ∧
      (∀ v va e, sector ∉ s.mem.found → s.mappers false (sector * 32) = [(v, va, e)] → s.pantriesOf f = [] → s.linkUp = true → (s.vf v).err.set = false →
        ∃ r, (t.vf v).err.held = (s.vf v).err.held ++ [Rec.bytes r] ∧ r.cls = 2 ∧ r.kind = (if pteW e then 0x0D02 else 0x0D07) ∧ r.addr = va)) ∧
  (∀ s d, ∃ t, exec (.patrolScrub d false) s = .next t ∧ t.mod2.pferrc0 = Counted s ∧ t.mem.dev = s.mem.dev ∧ t.groups = s.groups ∧
    ((∀ v ∈ s.damageVfs d, (s.vf v).c0 = false) → s.linkUp = true → t = { s with mod2 := { s.mod2 with pferrc0 := Counted s } })) ∧
  (∀ s k r l, (s.grp k).live = true → (s.grp k).frames ≠ [] → r < (s.grp k).top.nv → r < 64 → l < 64 →
    ∃ t, exec (.patrolScrub (.row k (s.grp k).fdepth r l) true) s = .next t ∧ OthersStay s t [k] ∧
      ∀ r' l', l' < 64 → lane ((t.grp k).row r').w l' = lane ((s.grp k).row r').w l' ∧
        (has ((t.grp k).row r').px l' = true ↔ (r' = r ∧ l' = l) ∨ has ((s.grp k).row r').px l' = true)) ∧
  (∀ s id r, get? s.preqs id = some r → r.st = 2 →
    ∃ t, exec (.patrolScrub (.request id) true) s = .next t ∧ get? t.preqs id = some { r with st := 0 }) ∧
  (∀ s t n e, (s.team t).live = true → (s.team t).guard.undo[n]? = some e →
    ∃ u, exec (.patrolScrub (.undo t n) true) s = .next u ∧ (u.team t).guard = { (s.team t).guard with damaged := some e.2.2.1 }) ∧
  (∀ s k g, s.grids = [(k, g)] → g.edges = [] → g.run.done = false → g.vf < 128 → (s.vf g.vf).contained = false →
    ∃ t, exec (.patrolScrub (.vf g.vf) true) s = .next t ∧ (t.grid k).run.done = true ∧ (t.grid k).run.status = 3 ∧ (t.vf g.vf).contained = true) ∧
  (∀ s v, v < 128 → (s.vf v).contained = true → exec (.patrolScrub (.vf v) true) s = .next { s with fresh := s.fresh + 1 }) ∧
  (∀ s d, d < 4 → (s.die d).online = false → exec (.patrolScrub (.die d) true) s = .next { s with fresh := s.fresh + 1 }) ∧
  (∀ s d, d < 4 → (s.die d).online = true → ∃ t, exec (.patrolScrub (.die d) true) s = .next t ∧ (t.die d).online = false) ∧
  (∀ s vf q c, get? (s.vf vf).queues q = some c → exec (.patrolScrub (.queueShadow vf q) true) s = .next (s.setQueue vf q { s.queue vf q with shadowPx := true })) ∧
  (∀ (s : State) vf q bs w, (s.queue vf q).cb.enabled = true → s.fwGet (s.writerDie vf q) vf q (s.queue vf q).addr.toNat 64 = (some bs, w) →
    (Qcb.ofBytes bs).seq.getLsbD 0 = true → (s.queue vf q).shadowPx = true → ((s.repair vf q).queue vf q).cb.enabled = false) ∧
  (∀ s frame, frame ∈ s.mod2.wiping → ∃ t, exec (.wipeAcknowledged frame) s = .next t ∧ frame ∉ t.mod2.wiping ∧ frame ∉ t.mod2.taken ∧
    (∀ a, t.mem.dev.read a = if a / 65536 = frame then 0 else s.mem.dev.read a) ∧ t.mem.host = s.mem.host) ∧
  (∀ s die, die ≤ 3 → (s.die die).inService = true → (s.die die).fw ≠ 2 →
    (∃ t, exec (.firmwareWatchdogExpiry die false) s = .next t ∧ t.die die = { s.die die with fw := 1 } ∧ t.mod2.pferrc0 = Counted s ∧
      ∀ d, d ≠ die → t.die d = s.die d) ∧
    ((∃ d, d < 4 ∧ d ≠ die ∧ (s.die d).inService = true ∧ (s.die d).fw ≠ 2) →
      ∃ t, exec (.firmwareWatchdogExpiry die true) s = .next t ∧ (t.die die).fw = 2 ∧ (∀ d, d ≠ die → (t.die d).fw = (s.die d).fw) ∧
        (s.vfs = [] → t.die die = { s.die die with fw := 2 } ∧ ∀ d, d ≠ die → t.die d = s.die d)) ∧
    (s.mod_.stage = 2 → (∀ d, d < 4 → d ≠ die → (s.die d).inService = true → (s.die d).fw = 2) →
      ∃ t, exec (.firmwareWatchdogExpiry die true) s = .next t ∧ AfterReset t)) ∧
  (∀ s die, (s.die die).fw = 1 → ∃ t, exec (.firmwareReloadComplete die) s = .next t ∧ (t.die die).fw = 0 ∧
    (s.vfs = [] → t = s.setDie die { s.die die with fw := 0 }))

/-! ## The machine as a whole -/

/-- R64, R111, R133, R377, R383, R462: with power, when the agenda is empty the group whose turn it is issues: `step` is `exec` of the instruction that the bytes at
its program counter decode to, once the instruction cache holds them, and what the cores and the watchdog do of themselves after any step (`housekeep`: due
refills, lines of frame waits, jobs that find room, loads that wait for requests, stops of watchpoints, windows that do not count, the end of a cut); as a
`yield` issues the groups that are ready are noted (R190, R315): those with an eligible lane whose issue would change them, and whose pipe is free (LOG 104); an
illegal word and a fetch that fails are steps of their own, code in host memory waits while the link retrains (R462, LOG 37), and without a group that can issue
nothing else happens. An agenda names whose turn it is, or another agent's step (LOG 1: the agenda is the model's own). Without power only POWER_GOOD happens. -/
def Obligations.StepRunsDecoded : Prop :=
  (∀ (s : State) c w n i, s.mod_.powered = true → s.agenda = [] → s.ctx = some c → s.fetchHeld c = false →
    s.fetch c = .ok (w, n) → decode w = .ok i → step s = thenDo State.housekeep (exec i (s.withReadies.fetched c))) ∧
  (∀ (s : State) c w n kind, s.mod_.powered = true → s.agenda = [] → s.ctx = some c → s.fetchHeld c = false →
    s.fetch c = .ok (w, n) → decode w = .bad kind →
    step s = thenDo State.housekeep (exec (.illegalInstruction kind (BitVec.ofNat 32 w)) (s.withReadies.fetched c))) ∧
  (∀ (s : State) c e, s.mod_.powered = true → s.agenda = [] → s.ctx = some c → s.fetchHeld c = false →
    s.fetch c = .error e → step s = thenDo State.housekeep (exec .fetchFault (s.withReadies.fetched c))) ∧
  (∀ (s : State) c, s.mod_.powered = true → s.agenda = [] → s.ctx = some c → s.fetchHeld c = true → step s = .next s.withReadies.housekeep) ∧
  (∀ s : State, s.mod_.powered = true → s.agenda = [] → s.ctx = none → step s = .next s.housekeep) ∧
  (∀ (s : State) g rest, s.mod_.powered = true → s.agenda = .issue g :: rest →
    ∀ c w n i, ({ s with agenda := rest, cur := g } : State).ctx = some c → ({ s with agenda := rest, cur := g } : State).fetchHeld c = false →
      ({ s with agenda := rest, cur := g } : State).fetch c = .ok (w, n) → decode w = .ok i →
      step s = thenDo State.housekeep (exec i ((({ s with agenda := rest, cur := g } : State).withReadies).fetched c))) ∧
  (∀ (s : State) i rest, s.mod_.powered = true → s.agenda = .event i :: rest →
    step s = thenDo State.housekeep (if Instr.agent i then exec i { s with agenda := rest } else .next { s with agenda := rest })) ∧
  (∀ (s : State) c w n i, s.ctx = some c → s.fetch c = .ok (w, n) → decode w = .ok i →
    (i ≠ .yield → s.withReadies = s) ∧ (i = .yield → s.withReadies = { s with readies := s.withReadies.readies } ∧
      ∀ k, k ∈ s.withReadies.readies ↔ k ∈ s.groups.map Prod.fst ∧ s.readyNow k = true)) ∧
  (∀ (s : State) k c w n i, ({ s with cur := k } : State).ctx = some c → ({ s with cur := k } : State).fetchHeld c = false → ({ s with cur := k } : State).fetch c = .ok (w, n) → decode w = .ok i →
    (s.readyNow k = true ↔ (s.grp k).eligible ≠ 0 ∧ Config.portFree s.issues k = true ∧
      ∃ t, exec i (({ s with cur := k } : State).fetched c) = .next t ∧ t.grp k ≠ s.grp k)) ∧
  (∀ (s : State) c, s.ctx = some c → ∃ u, Caches s u ∧ s.fetched c = { u with icaches := (s.fetched c).icaches, walks := (s.fetched c).walks }) ∧
  (∀ s : State, (∀ e ∈ s.groups, (s.grp e.1).eligible = 0 ∨ (s.grp e.1).study.phase ≠ 2 ∧ (s.grp e.1).top.spilled = false) →
    (∀ e ∈ s.groups, ∀ pc cards, (s.grp e.1).stall ≠ some (.enq pc cards)) →
    (∀ e ∈ s.groups, (s.grp e.1).study.haltMask = 0 ∧ ∀ w ∈ (s.grp e.1).lanes.waits, ∀ q, w.1 ≠ .req q) → (∀ e ∈ s.cores, e.2.line = []) → s.mod_.cutState ≠ 1 → s.mod_.cutState ≠ 3 →
    (∀ e ∈ s.grids, (s.grid e.1).run.done = true ∨ (s.grid e.1).run.inel = true ∨ s.eligibleGrid e.1 = true) → s.housekeep = s) ∧
  (∀ s : State, s.mod_.powered = false → (s.agenda = [] → step s = .fault .poweredOff) ∧ (∀ g rest, s.agenda = .issue g :: rest → step s = .fault .poweredOff) ∧
    (∀ i rest, s.agenda = .event i :: rest → i ≠ .powerGood → step s = .fault .poweredOff) ∧
    ∀ rest, s.agenda = .event .powerGood :: rest → step s = thenDo State.housekeep (exec .powerGood { s with agenda := rest }))

/-- R117 to R119 and the tables of worked encodings: a word of every format (C16, V3 in its layouts, VI, VP, PL, LV, MV, SS, SA, SI, B, BS, CL, CI, CT, LP, M,
ML, X, MX), with what it decodes to; and words that R133 makes illegal, with their kinds. -/
def Obligations.DecodeWords : Prop :=
  decode 0x10E2 = .ok (.addCompact ⟨.row 2, 7⟩) ∧
  decode 0xE8FC = .ok (.addq ⟨-3, 7⟩) ∧
  decode 0x3E0C2803 = .ok (.add ⟨.w32, .slot 2, .row 3, false, 5, none⟩) ∧
  decode 0x09143051 = .ok (.fneg ⟨.row 5, false, 6, none⟩) ∧
  decode 0x00141053 = .ok (.cvt ⟨.rn, 0, .row 5, false, 2, none⟩) ∧
  decode 0x14304055 = .ok (.cvtnPk ⟨.row 20, .row 12, false, 8, none⟩) ∧
  decode 0x040C31CF = .ok (.sel ⟨false, .row 4, .row 3, false, 6, 2⟩) ∧
  decode 0x010C205D = .ok (.redx ⟨.addF32, .row 3, false, 4, none⟩) ∧
  decode 0x4000202B = .ok (.addi ⟨64, .row 0, false, 4, none⟩) ∧
  decode 0x040D2849 = .ok (.setp ⟨.i32, .row 4, .row 3, 2, 5, none⟩) ∧
  decode 0x3E0D284B = .ok (.setpi ⟨-2, .row 3, 2, 5, none⟩) ∧
  decode 0x0019084D = .ok (.pand ⟨3, 2, 1, none⟩) ∧
  decode 0x0033205B = .ok (.ballot ⟨3, 4, none⟩) ∧
  decode 0x00562061 = .ok (.smovv ⟨0, 11, .row 4, none⟩) ∧
  decode 0x00A41863 = .ok (.sadd ⟨5, 4, 3⟩) ∧
  decode 0xFFE41865 = .ok (.saddi (-1) 4 3) ∧
  decode 0xFE00206B = .ok (.slx ⟨0xFE00, 4⟩) ∧
  decode 0x0020386F = .ok (.brs 4 .eqz 7) ∧
  decode 0x00000875 = .ok (.ret 1) ∧
  decode 0xFFFFA26D = .ok (.bra 0x1FFFF4 (some 3)) ∧
  decode 0x0D08327D = .ok (.atomAdd32 ⟨.row 4, 6, .pkg⟩) ∧
  decode 0x00403071 = .ok (.call ⟨0, 2, 0, 6⟩) ∧
  decode 0x09626073 = .ok (.calli ⟨9, 3, 1, 12⟩) ∧
  decode 0xFFFA2877 = .ok (.loop 0xFFFA 5) ∧
  decode 0x000004F5 = .ok .rti ∧
  decode 0x520A207D = .ok (.gsr .teamX 4) ∧
  decode 0x50481079 = .ok (.ld64 ⟨.row 1, 4, 2, none⟩) ∧
  decode 0x8014217B = .ok (.stl32 ⟨0, 10, .row 4, some 1⟩) ∧
  decode 0xA028007F = .ok (.mx ⟨.row 40, 0, 20, 0⟩) ∧
  decode 0x51C0817D = .ok (.ptake ⟨true, .row 32, 16, 2⟩) ∧
  decode 0x00000001 = .bad 0x0101 ∧
  decode 0x3E0C2F83 = .bad 0x0104 ∧
  decode 0x3E0DE803 = .bad 0x0105 ∧
  decode 0xFE0C2803 = .bad 0x0106

/-- R109, R112 to R119, R133: the encoder of every instruction that has an encoding and the decoder agree, with every operand at every value that the
encoding admits; and every word that decodes gives a well-formed instruction, of whose word no bit is lost. -/
def Obligations.EncodingsRoundTrip : Prop :=
  (∀ i : Instr, i.wf = true → i.encoded = true → decode (encode i) = .ok i) ∧
  (∀ w i, decode w = .ok i → i.wf = true ∧ i.encoded = true ∧ encode i = w % 2 ^ (8 * i.len))

/-- LOG 2: byte memories are in canonical form (addresses rising, no entry equal to what an unlisted address reads as), so that equal memories are equal
data: device and host memory, every parlour, and the scratchpad of every team with that of its checkpoint. -/
structure MemoryForm (s : State) : Prop where
  dev : s.mem.dev.wf = true
  host : s.mem.host.wf = true
  parlours : ∀ p ∈ s.mem.parlours, p.2.wf = true
  teams : ∀ e ∈ s.teams, e.2.scr.wf = true
  checkpoints : ∀ e ∈ s.teams, ∀ k, e.2.guard.ckpt = some k → k.scr.wf = true

/-- Every step, of a group or of any other agent, keeps every memory in canonical form (LOG 2: the form is the model's). -/
def Obligations.EveryStepKeepsMemoryForm : Prop := ∀ s t : State, MemoryForm s → step s = .next t → MemoryForm t

/-- R23, R27, R79, R108, R302, R321, R336, R362, R363, R374, R380, R388, R391, R402, R429, R468: the values that the rules give for reset, and every memory in
canonical form. -/
def Obligations.ResetValues : Prop :=
  let s := State.reset
  MemoryForm s ∧ s.groups = [] ∧ s.teams = [] ∧ s.grids = [] ∧ (∀ a, s.mem.dev.read a = 0) ∧ s.mem.devPx = [] ∧
  (∀ k, (s.core k).clk = 0 ∧ (s.core k).seed = 1 ∧ ∀ i, (s.core k).armR i = 0) ∧
  (∀ k i, (s.study k).r i = 0) ∧
  (∀ d, (s.die d).count = 0) ∧
  (∀ n, (s.space n).root = none ∧ (s.space n).gen = 1 ∧ (s.space n).planes = [] ∧ (s.space n).regions = []) ∧
  (∀ v, (s.vf v).asn = none ∧ (s.vf v).nextGrid = 1 ∧ (s.vf v).wqs = [] ∧ s.readWindow v 0x410 = 7 ∧ s.readWindow v 0x400 = 0 ∧ s.readWindow v 0x408 = 0 ∧
    s.readWindow v 0x418 = 0 ∧ s.readWindow v 0x420 = 0 ∧ s.readWindow v 0x428 = 0 ∧ s.readWindow v 0x430 = 0) ∧
  (∀ v q, q < 16 → s.readWindow v (0x200 + 8 * q) = 0) ∧
  s.readPf 0x100000 = 0x18020080200 ∧ (∀ p, 0 < p → p < 16 → (s.readPf (0x100000 + 8 * p)).getLsbD 40 = false) ∧
  (∀ p, p < 16 → s.readPf (0x100080 + 8 * p) = 0xFFFFFFFFFFFFFFFF ∧ s.readPf (0x100C40 + 8 * p) = 0x0100271000000064 ∧ (s.part p).slice = 2000) ∧
  (∀ v, v < 128 → s.readPf (0x100400 + 16 * v) = 0x0103FFFFFE000040 ∧ s.readPf (0x100408 + 16 * v) = 0x00000040FFFFFFFF) ∧
  s.readPf 0x100C00 = 0 ∧ s.readPf 0x100C08 = 0 ∧ s.readPf 0x100D00 = 0 ∧ s.readPf 0x100D10 = 0 ∧ s.readPf 0x100D20 = 0 ∧ s.readPf 0x100D28 = 0 ∧
  s.readPf 0x100D30 = 0 ∧ s.readPf 0x100D38 = 0 ∧ s.readPf 0x100D40 = 0
end

