-- ==== Sys2Proof/Laws/Tables.lean ====
section
/-! SUPPORT. Tables: what is read after a write, and after a change of every entry. -/

namespace Sys2Proof.Machine

variable {α : Type}

@[simp] theorem get_put_same (d : α) (m : FMap α) (k : Nat) (v : α) : get d (put m k v) k = v := by
  induction m with
  | nil => simp [put, get]
  | cons e t ih =>
    simp only [put]
    split
    · simp [get]
    · split
      · simp [get]
      · next h _ => simp only [get, if_neg (fun e => h (Eq.symm e)), ih]

theorem get_put_ne (d : α) (m : FMap α) {j k : Nat} (v : α) (h : j ≠ k) : get d (put m k v) j = get d m j := by
  induction m with
  | nil => simp [put, get, h.symm]
  | cons e t ih =>
    simp only [put]
    split
    · next e1 => subst e1; simp [get, h.symm]
    · split
      · simp [get, h.symm]
      · simp only [get, ih]

theorem get_put (d : α) (m : FMap α) (j k : Nat) (v : α) : get d (put m k v) j = if j = k then v else get d m j := by
  by_cases h : j = k
  · subst h; simp
  · simp [get_put_ne _ _ _ h, h]

theorem get_map (d : α) (m : FMap α) (f : Nat → α → α) (k : Nat) (h : f k d = d) :
    get d (m.map fun e => (e.1, f e.1 e.2)) k = f k (get d m k) := by
  induction m with
  | nil => simp [get, h]
  | cons e t ih =>
    simp only [List.map_cons, get]
    split
    · next e1 => subst e1; rfl
    · exact ih

end Sys2Proof.Machine
end

