-- ==== Sys2Proof/Laws/State.lean ====
section
/-! SUPPORT. What each setter of the state leaves: one lemma per field, and reading back what was set. -/

namespace Sys2Proof.Machine

variable (s : State) (k j : Nat)

@[simp] theorem grp_setGrp_same (x : Group) : (s.setGrp k x).grp k = x := get_put_same _ _ _ _
theorem grp_setGrp_ne (x : Group) (h : j ≠ k) : (s.setGrp k x).grp j = s.grp j := get_put_ne _ _ _ h
@[simp] theorem teams_setGrp (x : Group) : (s.setGrp k x).teams = s.teams := rfl
@[simp] theorem grids_setGrp (x : Group) : (s.setGrp k x).grids = s.grids := rfl
@[simp] theorem cores_setGrp (x : Group) : (s.setGrp k x).cores = s.cores := rfl
@[simp] theorem studies_setGrp (x : Group) : (s.setGrp k x).studies = s.studies := rfl
@[simp] theorem dies_setGrp (x : Group) : (s.setGrp k x).dies = s.dies := rfl
@[simp] theorem spaces_setGrp (x : Group) : (s.setGrp k x).spaces = s.spaces := rfl
@[simp] theorem vfs_setGrp (x : Group) : (s.setGrp k x).vfs = s.vfs := rfl
@[simp] theorem parts_setGrp (x : Group) : (s.setGrp k x).parts = s.parts := rfl
@[simp] theorem preqs_setGrp (x : Group) : (s.setGrp k x).preqs = s.preqs := rfl
@[simp] theorem bars_setGrp (x : Group) : (s.setGrp k x).bars = s.bars := rfl
@[simp] theorem mem_setGrp (x : Group) : (s.setGrp k x).mem = s.mem := rfl
@[simp] theorem mod_setGrp (x : Group) : (s.setGrp k x).mod_ = s.mod_ := rfl
@[simp] theorem mod2_setGrp (x : Group) : (s.setGrp k x).mod2 = s.mod2 := rfl
@[simp] theorem walks_setGrp (x : Group) : (s.setGrp k x).walks = s.walks := rfl
@[simp] theorem icaches_setGrp (x : Group) : (s.setGrp k x).icaches = s.icaches := rfl
@[simp] theorem decls_setGrp (x : Group) : (s.setGrp k x).decls = s.decls := rfl
@[simp] theorem cur_setGrp (x : Group) : (s.setGrp k x).cur = s.cur := rfl
@[simp] theorem readies_setGrp (x : Group) : (s.setGrp k x).readies = s.readies := rfl
@[simp] theorem issues_setGrp (x : Group) : (s.setGrp k x).issues = s.issues := rfl
@[simp] theorem agenda_setGrp (x : Group) : (s.setGrp k x).agenda = s.agenda := rfl
@[simp] theorem fresh_setGrp (x : Group) : (s.setGrp k x).fresh = s.fresh := rfl
@[simp] theorem ids_setGrp (x : Group) : (s.setGrp k x).ids = s.ids := rfl
@[simp] theorem team_setGrp (x : Group) : (s.setGrp k x).team j = s.team j := rfl
@[simp] theorem grid_setGrp (x : Group) : (s.setGrp k x).grid j = s.grid j := rfl
@[simp] theorem core_setGrp (x : Group) : (s.setGrp k x).core j = s.core j := rfl
@[simp] theorem study_setGrp (x : Group) : (s.setGrp k x).study j = s.study j := rfl
@[simp] theorem die_setGrp (x : Group) : (s.setGrp k x).die j = s.die j := rfl
@[simp] theorem space_setGrp (x : Group) : (s.setGrp k x).space j = s.space j := rfl
@[simp] theorem vf_setGrp (x : Group) : (s.setGrp k x).vf j = s.vf j := rfl
@[simp] theorem part_setGrp (x : Group) : (s.setGrp k x).part j = s.part j := rfl

@[simp] theorem team_setTeam_same (x : Team) : (s.setTeam k x).team k = x := get_put_same _ _ _ _
theorem team_setTeam_ne (x : Team) (h : j ≠ k) : (s.setTeam k x).team j = s.team j := get_put_ne _ _ _ h
@[simp] theorem groups_setTeam (x : Team) : (s.setTeam k x).groups = s.groups := rfl
@[simp] theorem grids_setTeam (x : Team) : (s.setTeam k x).grids = s.grids := rfl
@[simp] theorem cores_setTeam (x : Team) : (s.setTeam k x).cores = s.cores := rfl
@[simp] theorem studies_setTeam (x : Team) : (s.setTeam k x).studies = s.studies := rfl
@[simp] theorem dies_setTeam (x : Team) : (s.setTeam k x).dies = s.dies := rfl
@[simp] theorem spaces_setTeam (x : Team) : (s.setTeam k x).spaces = s.spaces := rfl
@[simp] theorem vfs_setTeam (x : Team) : (s.setTeam k x).vfs = s.vfs := rfl
@[simp] theorem parts_setTeam (x : Team) : (s.setTeam k x).parts = s.parts := rfl
@[simp] theorem preqs_setTeam (x : Team) : (s.setTeam k x).preqs = s.preqs := rfl
@[simp] theorem bars_setTeam (x : Team) : (s.setTeam k x).bars = s.bars := rfl
@[simp] theorem mem_setTeam (x : Team) : (s.setTeam k x).mem = s.mem := rfl
@[simp] theorem mod_setTeam (x : Team) : (s.setTeam k x).mod_ = s.mod_ := rfl
@[simp] theorem mod2_setTeam (x : Team) : (s.setTeam k x).mod2 = s.mod2 := rfl
@[simp] theorem walks_setTeam (x : Team) : (s.setTeam k x).walks = s.walks := rfl
@[simp] theorem icaches_setTeam (x : Team) : (s.setTeam k x).icaches = s.icaches := rfl
@[simp] theorem decls_setTeam (x : Team) : (s.setTeam k x).decls = s.decls := rfl
@[simp] theorem cur_setTeam (x : Team) : (s.setTeam k x).cur = s.cur := rfl
@[simp] theorem readies_setTeam (x : Team) : (s.setTeam k x).readies = s.readies := rfl
@[simp] theorem issues_setTeam (x : Team) : (s.setTeam k x).issues = s.issues := rfl
@[simp] theorem agenda_setTeam (x : Team) : (s.setTeam k x).agenda = s.agenda := rfl
@[simp] theorem fresh_setTeam (x : Team) : (s.setTeam k x).fresh = s.fresh := rfl
@[simp] theorem ids_setTeam (x : Team) : (s.setTeam k x).ids = s.ids := rfl
@[simp] theorem grp_setTeam (x : Team) : (s.setTeam k x).grp j = s.grp j := rfl
@[simp] theorem grid_setTeam (x : Team) : (s.setTeam k x).grid j = s.grid j := rfl
@[simp] theorem core_setTeam (x : Team) : (s.setTeam k x).core j = s.core j := rfl
@[simp] theorem study_setTeam (x : Team) : (s.setTeam k x).study j = s.study j := rfl
@[simp] theorem die_setTeam (x : Team) : (s.setTeam k x).die j = s.die j := rfl
@[simp] theorem space_setTeam (x : Team) : (s.setTeam k x).space j = s.space j := rfl
@[simp] theorem vf_setTeam (x : Team) : (s.setTeam k x).vf j = s.vf j := rfl
@[simp] theorem part_setTeam (x : Team) : (s.setTeam k x).part j = s.part j := rfl

@[simp] theorem grid_setGrid_same (x : Grid) : (s.setGrid k x).grid k = x := get_put_same _ _ _ _
theorem grid_setGrid_ne (x : Grid) (h : j ≠ k) : (s.setGrid k x).grid j = s.grid j := get_put_ne _ _ _ h
@[simp] theorem groups_setGrid (x : Grid) : (s.setGrid k x).groups = s.groups := rfl
@[simp] theorem teams_setGrid (x : Grid) : (s.setGrid k x).teams = s.teams := rfl
@[simp] theorem cores_setGrid (x : Grid) : (s.setGrid k x).cores = s.cores := rfl
@[simp] theorem studies_setGrid (x : Grid) : (s.setGrid k x).studies = s.studies := rfl
@[simp] theorem dies_setGrid (x : Grid) : (s.setGrid k x).dies = s.dies := rfl
@[simp] theorem spaces_setGrid (x : Grid) : (s.setGrid k x).spaces = s.spaces := rfl
@[simp] theorem vfs_setGrid (x : Grid) : (s.setGrid k x).vfs = s.vfs := rfl
@[simp] theorem parts_setGrid (x : Grid) : (s.setGrid k x).parts = s.parts := rfl
@[simp] theorem preqs_setGrid (x : Grid) : (s.setGrid k x).preqs = s.preqs := rfl
@[simp] theorem bars_setGrid (x : Grid) : (s.setGrid k x).bars = s.bars := rfl
@[simp] theorem mem_setGrid (x : Grid) : (s.setGrid k x).mem = s.mem := rfl
@[simp] theorem mod_setGrid (x : Grid) : (s.setGrid k x).mod_ = s.mod_ := rfl
@[simp] theorem mod2_setGrid (x : Grid) : (s.setGrid k x).mod2 = s.mod2 := rfl
@[simp] theorem walks_setGrid (x : Grid) : (s.setGrid k x).walks = s.walks := rfl
@[simp] theorem icaches_setGrid (x : Grid) : (s.setGrid k x).icaches = s.icaches := rfl
@[simp] theorem decls_setGrid (x : Grid) : (s.setGrid k x).decls = s.decls := rfl
@[simp] theorem cur_setGrid (x : Grid) : (s.setGrid k x).cur = s.cur := rfl
@[simp] theorem readies_setGrid (x : Grid) : (s.setGrid k x).readies = s.readies := rfl
@[simp] theorem issues_setGrid (x : Grid) : (s.setGrid k x).issues = s.issues := rfl
@[simp] theorem agenda_setGrid (x : Grid) : (s.setGrid k x).agenda = s.agenda := rfl
@[simp] theorem fresh_setGrid (x : Grid) : (s.setGrid k x).fresh = s.fresh := rfl
@[simp] theorem ids_setGrid (x : Grid) : (s.setGrid k x).ids = s.ids := rfl
@[simp] theorem grp_setGrid (x : Grid) : (s.setGrid k x).grp j = s.grp j := rfl
@[simp] theorem team_setGrid (x : Grid) : (s.setGrid k x).team j = s.team j := rfl
@[simp] theorem core_setGrid (x : Grid) : (s.setGrid k x).core j = s.core j := rfl
@[simp] theorem study_setGrid (x : Grid) : (s.setGrid k x).study j = s.study j := rfl
@[simp] theorem die_setGrid (x : Grid) : (s.setGrid k x).die j = s.die j := rfl
@[simp] theorem space_setGrid (x : Grid) : (s.setGrid k x).space j = s.space j := rfl
@[simp] theorem vf_setGrid (x : Grid) : (s.setGrid k x).vf j = s.vf j := rfl
@[simp] theorem part_setGrid (x : Grid) : (s.setGrid k x).part j = s.part j := rfl

@[simp] theorem core_setCore_same (x : Core) : (s.setCore k x).core k = x := get_put_same _ _ _ _
theorem core_setCore_ne (x : Core) (h : j ≠ k) : (s.setCore k x).core j = s.core j := get_put_ne _ _ _ h
@[simp] theorem groups_setCore (x : Core) : (s.setCore k x).groups = s.groups := rfl
@[simp] theorem teams_setCore (x : Core) : (s.setCore k x).teams = s.teams := rfl
@[simp] theorem grids_setCore (x : Core) : (s.setCore k x).grids = s.grids := rfl
@[simp] theorem studies_setCore (x : Core) : (s.setCore k x).studies = s.studies := rfl
@[simp] theorem dies_setCore (x : Core) : (s.setCore k x).dies = s.dies := rfl
@[simp] theorem spaces_setCore (x : Core) : (s.setCore k x).spaces = s.spaces := rfl
@[simp] theorem vfs_setCore (x : Core) : (s.setCore k x).vfs = s.vfs := rfl
@[simp] theorem parts_setCore (x : Core) : (s.setCore k x).parts = s.parts := rfl
@[simp] theorem preqs_setCore (x : Core) : (s.setCore k x).preqs = s.preqs := rfl
@[simp] theorem bars_setCore (x : Core) : (s.setCore k x).bars = s.bars := rfl
@[simp] theorem mem_setCore (x : Core) : (s.setCore k x).mem = s.mem := rfl
@[simp] theorem mod_setCore (x : Core) : (s.setCore k x).mod_ = s.mod_ := rfl
@[simp] theorem mod2_setCore (x : Core) : (s.setCore k x).mod2 = s.mod2 := rfl
@[simp] theorem walks_setCore (x : Core) : (s.setCore k x).walks = s.walks := rfl
@[simp] theorem icaches_setCore (x : Core) : (s.setCore k x).icaches = s.icaches := rfl
@[simp] theorem decls_setCore (x : Core) : (s.setCore k x).decls = s.decls := rfl
@[simp] theorem cur_setCore (x : Core) : (s.setCore k x).cur = s.cur := rfl
@[simp] theorem readies_setCore (x : Core) : (s.setCore k x).readies = s.readies := rfl
@[simp] theorem issues_setCore (x : Core) : (s.setCore k x).issues = s.issues := rfl
@[simp] theorem agenda_setCore (x : Core) : (s.setCore k x).agenda = s.agenda := rfl
@[simp] theorem fresh_setCore (x : Core) : (s.setCore k x).fresh = s.fresh := rfl
@[simp] theorem ids_setCore (x : Core) : (s.setCore k x).ids = s.ids := rfl
@[simp] theorem grp_setCore (x : Core) : (s.setCore k x).grp j = s.grp j := rfl
@[simp] theorem team_setCore (x : Core) : (s.setCore k x).team j = s.team j := rfl
@[simp] theorem grid_setCore (x : Core) : (s.setCore k x).grid j = s.grid j := rfl
@[simp] theorem study_setCore (x : Core) : (s.setCore k x).study j = s.study j := rfl
@[simp] theorem die_setCore (x : Core) : (s.setCore k x).die j = s.die j := rfl
@[simp] theorem space_setCore (x : Core) : (s.setCore k x).space j = s.space j := rfl
@[simp] theorem vf_setCore (x : Core) : (s.setCore k x).vf j = s.vf j := rfl
@[simp] theorem part_setCore (x : Core) : (s.setCore k x).part j = s.part j := rfl

@[simp] theorem study_setStudy_same (x : StudyCore) : (s.setStudy k x).study k = x := get_put_same _ _ _ _
theorem study_setStudy_ne (x : StudyCore) (h : j ≠ k) : (s.setStudy k x).study j = s.study j := get_put_ne _ _ _ h
@[simp] theorem groups_setStudy (x : StudyCore) : (s.setStudy k x).groups = s.groups := rfl
@[simp] theorem teams_setStudy (x : StudyCore) : (s.setStudy k x).teams = s.teams := rfl
@[simp] theorem grids_setStudy (x : StudyCore) : (s.setStudy k x).grids = s.grids := rfl
@[simp] theorem cores_setStudy (x : StudyCore) : (s.setStudy k x).cores = s.cores := rfl
@[simp] theorem dies_setStudy (x : StudyCore) : (s.setStudy k x).dies = s.dies := rfl
@[simp] theorem spaces_setStudy (x : StudyCore) : (s.setStudy k x).spaces = s.spaces := rfl
@[simp] theorem vfs_setStudy (x : StudyCore) : (s.setStudy k x).vfs = s.vfs := rfl
@[simp] theorem parts_setStudy (x : StudyCore) : (s.setStudy k x).parts = s.parts := rfl
@[simp] theorem preqs_setStudy (x : StudyCore) : (s.setStudy k x).preqs = s.preqs := rfl
@[simp] theorem bars_setStudy (x : StudyCore) : (s.setStudy k x).bars = s.bars := rfl
@[simp] theorem mem_setStudy (x : StudyCore) : (s.setStudy k x).mem = s.mem := rfl
@[simp] theorem mod_setStudy (x : StudyCore) : (s.setStudy k x).mod_ = s.mod_ := rfl
@[simp] theorem mod2_setStudy (x : StudyCore) : (s.setStudy k x).mod2 = s.mod2 := rfl
@[simp] theorem walks_setStudy (x : StudyCore) : (s.setStudy k x).walks = s.walks := rfl
@[simp] theorem icaches_setStudy (x : StudyCore) : (s.setStudy k x).icaches = s.icaches := rfl
@[simp] theorem decls_setStudy (x : StudyCore) : (s.setStudy k x).decls = s.decls := rfl
@[simp] theorem cur_setStudy (x : StudyCore) : (s.setStudy k x).cur = s.cur := rfl
@[simp] theorem readies_setStudy (x : StudyCore) : (s.setStudy k x).readies = s.readies := rfl
@[simp] theorem issues_setStudy (x : StudyCore) : (s.setStudy k x).issues = s.issues := rfl
@[simp] theorem agenda_setStudy (x : StudyCore) : (s.setStudy k x).agenda = s.agenda := rfl
@[simp] theorem fresh_setStudy (x : StudyCore) : (s.setStudy k x).fresh = s.fresh := rfl
@[simp] theorem ids_setStudy (x : StudyCore) : (s.setStudy k x).ids = s.ids := rfl
@[simp] theorem grp_setStudy (x : StudyCore) : (s.setStudy k x).grp j = s.grp j := rfl
@[simp] theorem team_setStudy (x : StudyCore) : (s.setStudy k x).team j = s.team j := rfl
@[simp] theorem grid_setStudy (x : StudyCore) : (s.setStudy k x).grid j = s.grid j := rfl
@[simp] theorem core_setStudy (x : StudyCore) : (s.setStudy k x).core j = s.core j := rfl
@[simp] theorem die_setStudy (x : StudyCore) : (s.setStudy k x).die j = s.die j := rfl
@[simp] theorem space_setStudy (x : StudyCore) : (s.setStudy k x).space j = s.space j := rfl
@[simp] theorem vf_setStudy (x : StudyCore) : (s.setStudy k x).vf j = s.vf j := rfl
@[simp] theorem part_setStudy (x : StudyCore) : (s.setStudy k x).part j = s.part j := rfl

@[simp] theorem die_setDie_same (x : Die) : (s.setDie k x).die k = x := get_put_same _ _ _ _
theorem die_setDie_ne (x : Die) (h : j ≠ k) : (s.setDie k x).die j = s.die j := get_put_ne _ _ _ h
@[simp] theorem groups_setDie (x : Die) : (s.setDie k x).groups = s.groups := rfl
@[simp] theorem teams_setDie (x : Die) : (s.setDie k x).teams = s.teams := rfl
@[simp] theorem grids_setDie (x : Die) : (s.setDie k x).grids = s.grids := rfl
@[simp] theorem cores_setDie (x : Die) : (s.setDie k x).cores = s.cores := rfl
@[simp] theorem studies_setDie (x : Die) : (s.setDie k x).studies = s.studies := rfl
@[simp] theorem spaces_setDie (x : Die) : (s.setDie k x).spaces = s.spaces := rfl
@[simp] theorem vfs_setDie (x : Die) : (s.setDie k x).vfs = s.vfs := rfl
@[simp] theorem parts_setDie (x : Die) : (s.setDie k x).parts = s.parts := rfl
@[simp] theorem preqs_setDie (x : Die) : (s.setDie k x).preqs = s.preqs := rfl
@[simp] theorem bars_setDie (x : Die) : (s.setDie k x).bars = s.bars := rfl
@[simp] theorem mem_setDie (x : Die) : (s.setDie k x).mem = s.mem := rfl
@[simp] theorem mod_setDie (x : Die) : (s.setDie k x).mod_ = s.mod_ := rfl
@[simp] theorem mod2_setDie (x : Die) : (s.setDie k x).mod2 = s.mod2 := rfl
@[simp] theorem walks_setDie (x : Die) : (s.setDie k x).walks = s.walks := rfl
@[simp] theorem icaches_setDie (x : Die) : (s.setDie k x).icaches = s.icaches := rfl
@[simp] theorem decls_setDie (x : Die) : (s.setDie k x).decls = s.decls := rfl
@[simp] theorem cur_setDie (x : Die) : (s.setDie k x).cur = s.cur := rfl
@[simp] theorem readies_setDie (x : Die) : (s.setDie k x).readies = s.readies := rfl
@[simp] theorem issues_setDie (x : Die) : (s.setDie k x).issues = s.issues := rfl
@[simp] theorem agenda_setDie (x : Die) : (s.setDie k x).agenda = s.agenda := rfl
@[simp] theorem fresh_setDie (x : Die) : (s.setDie k x).fresh = s.fresh := rfl
@[simp] theorem ids_setDie (x : Die) : (s.setDie k x).ids = s.ids := rfl
@[simp] theorem grp_setDie (x : Die) : (s.setDie k x).grp j = s.grp j := rfl
@[simp] theorem team_setDie (x : Die) : (s.setDie k x).team j = s.team j := rfl
@[simp] theorem grid_setDie (x : Die) : (s.setDie k x).grid j = s.grid j := rfl
@[simp] theorem core_setDie (x : Die) : (s.setDie k x).core j = s.core j := rfl
@[simp] theorem study_setDie (x : Die) : (s.setDie k x).study j = s.study j := rfl
@[simp] theorem space_setDie (x : Die) : (s.setDie k x).space j = s.space j := rfl
@[simp] theorem vf_setDie (x : Die) : (s.setDie k x).vf j = s.vf j := rfl
@[simp] theorem part_setDie (x : Die) : (s.setDie k x).part j = s.part j := rfl

@[simp] theorem space_setSpace_same (x : Space) : (s.setSpace k x).space k = x := get_put_same _ _ _ _
theorem space_setSpace_ne (x : Space) (h : j ≠ k) : (s.setSpace k x).space j = s.space j := get_put_ne _ _ _ h
@[simp] theorem groups_setSpace (x : Space) : (s.setSpace k x).groups = s.groups := rfl
@[simp] theorem teams_setSpace (x : Space) : (s.setSpace k x).teams = s.teams := rfl
@[simp] theorem grids_setSpace (x : Space) : (s.setSpace k x).grids = s.grids := rfl
@[simp] theorem cores_setSpace (x : Space) : (s.setSpace k x).cores = s.cores := rfl
@[simp] theorem studies_setSpace (x : Space) : (s.setSpace k x).studies = s.studies := rfl
@[simp] theorem dies_setSpace (x : Space) : (s.setSpace k x).dies = s.dies := rfl
@[simp] theorem vfs_setSpace (x : Space) : (s.setSpace k x).vfs = s.vfs := rfl
@[simp] theorem parts_setSpace (x : Space) : (s.setSpace k x).parts = s.parts := rfl
@[simp] theorem preqs_setSpace (x : Space) : (s.setSpace k x).preqs = s.preqs := rfl
@[simp] theorem bars_setSpace (x : Space) : (s.setSpace k x).bars = s.bars := rfl
@[simp] theorem mem_setSpace (x : Space) : (s.setSpace k x).mem = s.mem := rfl
@[simp] theorem mod_setSpace (x : Space) : (s.setSpace k x).mod_ = s.mod_ := rfl
@[simp] theorem mod2_setSpace (x : Space) : (s.setSpace k x).mod2 = s.mod2 := rfl
@[simp] theorem walks_setSpace (x : Space) : (s.setSpace k x).walks = s.walks := rfl
@[simp] theorem icaches_setSpace (x : Space) : (s.setSpace k x).icaches = s.icaches := rfl
@[simp] theorem decls_setSpace (x : Space) : (s.setSpace k x).decls = s.decls := rfl
@[simp] theorem cur_setSpace (x : Space) : (s.setSpace k x).cur = s.cur := rfl
@[simp] theorem readies_setSpace (x : Space) : (s.setSpace k x).readies = s.readies := rfl
@[simp] theorem issues_setSpace (x : Space) : (s.setSpace k x).issues = s.issues := rfl
@[simp] theorem agenda_setSpace (x : Space) : (s.setSpace k x).agenda = s.agenda := rfl
@[simp] theorem fresh_setSpace (x : Space) : (s.setSpace k x).fresh = s.fresh := rfl
@[simp] theorem ids_setSpace (x : Space) : (s.setSpace k x).ids = s.ids := rfl
@[simp] theorem grp_setSpace (x : Space) : (s.setSpace k x).grp j = s.grp j := rfl
@[simp] theorem team_setSpace (x : Space) : (s.setSpace k x).team j = s.team j := rfl
@[simp] theorem grid_setSpace (x : Space) : (s.setSpace k x).grid j = s.grid j := rfl
@[simp] theorem core_setSpace (x : Space) : (s.setSpace k x).core j = s.core j := rfl
@[simp] theorem study_setSpace (x : Space) : (s.setSpace k x).study j = s.study j := rfl
@[simp] theorem die_setSpace (x : Space) : (s.setSpace k x).die j = s.die j := rfl
@[simp] theorem vf_setSpace (x : Space) : (s.setSpace k x).vf j = s.vf j := rfl
@[simp] theorem part_setSpace (x : Space) : (s.setSpace k x).part j = s.part j := rfl

@[simp] theorem vf_setVf_same (x : Vf) : (s.setVf k x).vf k = x := get_put_same _ _ _ _
theorem vf_setVf_ne (x : Vf) (h : j ≠ k) : (s.setVf k x).vf j = s.vf j := get_put_ne _ _ _ h
@[simp] theorem groups_setVf (x : Vf) : (s.setVf k x).groups = s.groups := rfl
@[simp] theorem teams_setVf (x : Vf) : (s.setVf k x).teams = s.teams := rfl
@[simp] theorem grids_setVf (x : Vf) : (s.setVf k x).grids = s.grids := rfl
@[simp] theorem cores_setVf (x : Vf) : (s.setVf k x).cores = s.cores := rfl
@[simp] theorem studies_setVf (x : Vf) : (s.setVf k x).studies = s.studies := rfl
@[simp] theorem dies_setVf (x : Vf) : (s.setVf k x).dies = s.dies := rfl
@[simp] theorem spaces_setVf (x : Vf) : (s.setVf k x).spaces = s.spaces := rfl
@[simp] theorem parts_setVf (x : Vf) : (s.setVf k x).parts = s.parts := rfl
@[simp] theorem preqs_setVf (x : Vf) : (s.setVf k x).preqs = s.preqs := rfl
@[simp] theorem bars_setVf (x : Vf) : (s.setVf k x).bars = s.bars := rfl
@[simp] theorem mem_setVf (x : Vf) : (s.setVf k x).mem = s.mem := rfl
@[simp] theorem mod_setVf (x : Vf) : (s.setVf k x).mod_ = s.mod_ := rfl
@[simp] theorem mod2_setVf (x : Vf) : (s.setVf k x).mod2 = s.mod2 := rfl
@[simp] theorem walks_setVf (x : Vf) : (s.setVf k x).walks = s.walks := rfl
@[simp] theorem icaches_setVf (x : Vf) : (s.setVf k x).icaches = s.icaches := rfl
@[simp] theorem decls_setVf (x : Vf) : (s.setVf k x).decls = s.decls := rfl
@[simp] theorem cur_setVf (x : Vf) : (s.setVf k x).cur = s.cur := rfl
@[simp] theorem readies_setVf (x : Vf) : (s.setVf k x).readies = s.readies := rfl
@[simp] theorem issues_setVf (x : Vf) : (s.setVf k x).issues = s.issues := rfl
@[simp] theorem agenda_setVf (x : Vf) : (s.setVf k x).agenda = s.agenda := rfl
@[simp] theorem fresh_setVf (x : Vf) : (s.setVf k x).fresh = s.fresh := rfl
@[simp] theorem ids_setVf (x : Vf) : (s.setVf k x).ids = s.ids := rfl
@[simp] theorem grp_setVf (x : Vf) : (s.setVf k x).grp j = s.grp j := rfl
@[simp] theorem team_setVf (x : Vf) : (s.setVf k x).team j = s.team j := rfl
@[simp] theorem grid_setVf (x : Vf) : (s.setVf k x).grid j = s.grid j := rfl
@[simp] theorem core_setVf (x : Vf) : (s.setVf k x).core j = s.core j := rfl
@[simp] theorem study_setVf (x : Vf) : (s.setVf k x).study j = s.study j := rfl
@[simp] theorem die_setVf (x : Vf) : (s.setVf k x).die j = s.die j := rfl
@[simp] theorem space_setVf (x : Vf) : (s.setVf k x).space j = s.space j := rfl
@[simp] theorem part_setVf (x : Vf) : (s.setVf k x).part j = s.part j := rfl

@[simp] theorem part_setPart_same (x : Part) : (s.setPart k x).part k = x := get_put_same _ _ _ _
theorem part_setPart_ne (x : Part) (h : j ≠ k) : (s.setPart k x).part j = s.part j := get_put_ne _ _ _ h
@[simp] theorem groups_setPart (x : Part) : (s.setPart k x).groups = s.groups := rfl
@[simp] theorem teams_setPart (x : Part) : (s.setPart k x).teams = s.teams := rfl
@[simp] theorem grids_setPart (x : Part) : (s.setPart k x).grids = s.grids := rfl
@[simp] theorem cores_setPart (x : Part) : (s.setPart k x).cores = s.cores := rfl
@[simp] theorem studies_setPart (x : Part) : (s.setPart k x).studies = s.studies := rfl
@[simp] theorem dies_setPart (x : Part) : (s.setPart k x).dies = s.dies := rfl
@[simp] theorem spaces_setPart (x : Part) : (s.setPart k x).spaces = s.spaces := rfl
@[simp] theorem vfs_setPart (x : Part) : (s.setPart k x).vfs = s.vfs := rfl
@[simp] theorem preqs_setPart (x : Part) : (s.setPart k x).preqs = s.preqs := rfl
@[simp] theorem bars_setPart (x : Part) : (s.setPart k x).bars = s.bars := rfl
@[simp] theorem mem_setPart (x : Part) : (s.setPart k x).mem = s.mem := rfl
@[simp] theorem mod_setPart (x : Part) : (s.setPart k x).mod_ = s.mod_ := rfl
@[simp] theorem mod2_setPart (x : Part) : (s.setPart k x).mod2 = s.mod2 := rfl
@[simp] theorem walks_setPart (x : Part) : (s.setPart k x).walks = s.walks := rfl
@[simp] theorem icaches_setPart (x : Part) : (s.setPart k x).icaches = s.icaches := rfl
@[simp] theorem decls_setPart (x : Part) : (s.setPart k x).decls = s.decls := rfl
@[simp] theorem cur_setPart (x : Part) : (s.setPart k x).cur = s.cur := rfl
@[simp] theorem readies_setPart (x : Part) : (s.setPart k x).readies = s.readies := rfl
@[simp] theorem issues_setPart (x : Part) : (s.setPart k x).issues = s.issues := rfl
@[simp] theorem agenda_setPart (x : Part) : (s.setPart k x).agenda = s.agenda := rfl
@[simp] theorem fresh_setPart (x : Part) : (s.setPart k x).fresh = s.fresh := rfl
@[simp] theorem ids_setPart (x : Part) : (s.setPart k x).ids = s.ids := rfl
@[simp] theorem grp_setPart (x : Part) : (s.setPart k x).grp j = s.grp j := rfl
@[simp] theorem team_setPart (x : Part) : (s.setPart k x).team j = s.team j := rfl
@[simp] theorem grid_setPart (x : Part) : (s.setPart k x).grid j = s.grid j := rfl
@[simp] theorem core_setPart (x : Part) : (s.setPart k x).core j = s.core j := rfl
@[simp] theorem study_setPart (x : Part) : (s.setPart k x).study j = s.study j := rfl
@[simp] theorem die_setPart (x : Part) : (s.setPart k x).die j = s.die j := rfl
@[simp] theorem space_setPart (x : Part) : (s.setPart k x).space j = s.space j := rfl
@[simp] theorem vf_setPart (x : Part) : (s.setPart k x).vf j = s.vf j := rfl

end Sys2Proof.Machine
end

