-- ==== Sys2Proof/Laws/Issue.lean ====
section
/-! SUPPORT. Issuing an instruction: that it goes ahead (`issue_next`), and all that committing a register effect does (`commit_upd`). -/

namespace Sys2Proof
open Machine

/-! ### `Beside` -/

theorem SameWaits.refl (g : Group) : SameWaits g g := rfl

theorem Beside.refl (s : State) (k : Nat) : Beside s s k :=
  ⟨rfl, fun _ => rfl, fun _ => rfl, fun _ => rfl, fun _ => rfl, fun _ _ => ⟨rfl, rfl⟩⟩

theorem Beside.trans {s t u : State} {k : Nat} (a : Beside s t k) (b : Beside t u k) : Beside s u k where
  rest := by rw [b.rest, a.rest]
  cores j := by rw [b.cores j, a.cores j]
  teams j := by rw [b.teams j, a.teams j]
  grids j := by rw [b.grids j, a.grids j]
  studies j := by rw [b.studies j, a.studies j]
  others j h := by
    obtain ⟨a1, a2⟩ := a.others j h
    obtain ⟨b1, b2⟩ := b.others j h
    refine ⟨?_, ?_⟩
    · rw [b1, a1]
    · unfold SameWaits at *; rw [b2, a2]

/-- A change of the group itself. -/
theorem Beside.setGrp (s : State) (k : Nat) (g : Group) : Beside s (s.setGrp k g) k where
  rest := rfl
  cores _ := rfl
  teams _ := rfl
  grids _ := rfl
  studies _ := rfl
  others j h := by rw [grp_setGrp_ne _ _ _ _ h]; exact ⟨rfl, rfl⟩

theorem Beside.upd (s : State) (k : Nat) (f : Group → Group) : Beside s (s.upd k f) k := Beside.setGrp ..

@[simp] theorem grp_upd_same (s : State) (k : Nat) (f : Group → Group) : (s.upd k f).grp k = f (s.grp k) := by simp [State.upd]

/-! ### The pieces of an issue -/

/-- The waits at `yield` count down in the other groups of the scheduler. -/
theorem yieldTick_grp_self (s : State) (k : Nat) : (s.yieldTick k).grp k = s.grp k := by
  have := get_map ({} : Group) s.groups (fun j g => if g.sched j == (s.grp k).sched k && j != k then { g with lanes := { g.lanes with waits := g.lanes.waits.filterMap fun w => match w.1 with
    | .yield n => if n ≤ 1 then none else some (.yield (n - 1), w.2)
    | _ => some w } } else g) k (by simp)
  simp only [bne_self_eq_false, Bool.and_false, Bool.false_eq_true, ↓reduceIte] at this
  refine Eq.trans ?_ this
  unfold State.yieldTick State.grp
  congr 1
  apply List.map_congr_left
  intro e _
  split <;> rfl

theorem yieldTick_grp_other (s : State) (k j : Nat) :
    (s.yieldTick k).grp j = { s.grp j with lanes := { (s.grp j).lanes with waits := ((s.yieldTick k).grp j).lanes.waits } } ∧
    SameWaits (s.grp j) ((s.yieldTick k).grp j) := by
  have := get_map ({} : Group) s.groups (fun j g => if g.sched j == (s.grp k).sched k && j != k then { g with lanes := { g.lanes with waits := g.lanes.waits.filterMap fun w => match w.1 with
    | .yield n => if n ≤ 1 then none else some (.yield (n - 1), w.2)
    | _ => some w } } else g) j (by simp)
  have e : (s.yieldTick k).grp j = _ := Eq.trans (by
    unfold State.yieldTick State.grp
    congr 1
    apply List.map_congr_left
    intro e _
    split <;> rfl) this
  rw [e]
  change _ ∧ SameWaits (get _ _ _) _
  unfold State.grp
  split
  · refine ⟨rfl, ?_⟩
    unfold SameWaits
    simp only
    generalize (get ({} : Group) s.groups j).lanes.waits = ws
    induction ws with
    | nil => rfl
    | cons w t ih =>
      obtain ⟨w, m⟩ := w
      cases w with
      | yield n =>
        rw [List.filterMap_cons]
        by_cases hn : n ≤ 1 <;> simp only [hn, if_true, if_false, List.filter_cons, Wait.yields, Bool.not_true, Bool.false_eq_true] <;> exact ih
      | _ => simp only [List.filterMap_cons, List.filter_cons, Wait.yields, Bool.not_false, if_true]; exact congrArg _ ih
  · exact ⟨rfl, rfl⟩

theorem Beside.yieldTick (s : State) (k : Nat) : Beside s (s.yieldTick k) k where
  rest := rfl
  cores _ := rfl
  teams _ := rfl
  grids _ := rfl
  studies _ := rfl
  others j _ := yieldTick_grp_other s k j

/-- A change of a team's undo state. -/
theorem Beside.guard (s : State) (k t : Nat) (g : Guardd) : Beside s (s.setTeam t { s.team t with guard := g }) k where
  rest := rfl
  cores _ := rfl
  teams j := by by_cases h : j = t
                · subst h; simp
                · rw [team_setTeam_ne _ _ _ _ h]
  grids _ := rfl
  studies _ := rfl
  others _ _ := ⟨rfl, rfl⟩

theorem Beside.publish (s : State) (k t : Nat) : Beside s (s.publish t) k := by
  unfold State.publish
  dsimp only
  split
  · exact Beside.guard ..
  · exact Beside.refl ..

@[simp] theorem groups_publish (s : State) (t : Nat) : (s.publish t).groups = s.groups := by unfold State.publish; dsimp only; split <;> rfl
@[simp] theorem grp_publish (s : State) (t j : Nat) : (s.publish t).grp j = s.grp j := by unfold State.grp; simp

theorem Beside.logRow (s : State) (k k' d r : Nat) : Beside s (s.logRow k' d r) k := by
  unfold State.logRow
  dsimp only
  repeat' split
  all_goals first | exact Beside.refl .. | exact Beside.publish .. | exact Beside.guard ..

@[simp] theorem groups_logRow (s : State) (k d r : Nat) : (s.logRow k d r).groups = s.groups := by
  unfold State.logRow
  dsimp only
  repeat' split
  all_goals first | rfl | simp

theorem Beside.foldl {α : Type} (k : Nat) (f : State → α → State) (hf : ∀ s a, Beside s (f s a) k) (l : List α) (s : State) :
    Beside s (l.foldl f s) k := by
  induction l generalizing s with
  | nil => exact Beside.refl ..
  | cons a t ih => exact (hf s a).trans (ih _)

theorem groups_foldl {α : Type} (f : State → α → State) (hf : ∀ s a, (f s a).groups = s.groups) (l : List α) (s : State) :
    (l.foldl f s).groups = s.groups := by
  induction l generalizing s with
  | nil => rfl
  | cons a t ih => exact (ih _).trans (hf s a)

/-- A mark changes nothing but the study state, and leaves the group at home. -/
theorem markGroup_beside (s : State) (k cause : Nat) : Beside s (s.markGroup k cause) k := by
  unfold State.markGroup
  dsimp only
  split
  · exact Beside.refl ..
  · exact Beside.setGrp ..
theorem markGroup_grp (s : State) (k cause : Nat) :
    ∃ st, (s.markGroup k cause).grp k = { s.grp k with study := st } ∧ st.phase = (s.grp k).study.phase := by
  unfold State.markGroup
  dsimp only
  split
  · exact ⟨_, rfl, rfl⟩
  · exact ⟨_, grp_setGrp_same .., rfl⟩

theorem pcMatch_beside (s : State) (k : Nat) (pc : W64) : Beside s (s.pcMatch k pc) k := by
  unfold State.pcMatch
  dsimp only
  repeat' split
  all_goals first | exact Beside.refl .. | exact markGroup_beside ..
theorem pcMatch_grp (s : State) (k : Nat) (pc : W64) :
    ∃ st, (s.pcMatch k pc).grp k = { s.grp k with study := st } ∧ st.phase = (s.grp k).study.phase := by
  unfold State.pcMatch
  dsimp only
  repeat' split
  all_goals first | exact ⟨_, rfl, rfl⟩ | exact markGroup_grp ..

/-- A mark of progress changes nothing else. -/
theorem Beside.progress (s : State) (k g : Nat) : Beside s (s.progress g) k where
  rest := rfl
  cores _ := rfl
  teams _ := rfl
  grids j := by
    unfold State.progress
    by_cases e : j = g
    · subst e; simp
    · rw [grid_setGrid_ne _ _ _ _ e]
  studies _ := rfl
  others _ _ := ⟨rfl, rfl⟩

theorem Beside.issues (s : State) (k n : Nat) : Beside s { s with issues := n } k :=
  ⟨rfl, fun _ => rfl, fun _ => rfl, fun _ => rfl, fun _ => rfl, fun _ _ => ⟨rfl, rfl⟩⟩

/-- Counting an issue of a group at home. -/
theorem countIssue_home (s : State) (c : Ctx) (h : (s.grp c.key).study.phase = 0) :
    Beside s (s.countIssue c) c.key ∧
    ∃ st, (s.countIssue c).grp c.key = { s.grp c.key with study := st, age := s.issues } ∧ st.phase = 0 := by
  unfold State.countIssue
  dsimp only
  generalize hst : (s.grp c.key).study.counted _ = st1
  have p1 : st1.phase = 0 := by rw [← hst]; unfold Study.counted; simp [h]
  generalize hs1 : s.setGrp c.key _ = s1
  have b1 : Beside s s1 c.key := hs1 ▸ Beside.setGrp ..
  have g1 : s1.grp c.key = { s.grp c.key with study := st1, age := s.issues } := by rw [← hs1]; exact grp_setGrp_same ..
  obtain ⟨st2, e2, p2⟩ := pcMatch_grp { s1.progress (s.grp c.key).grid with issues := (s1.progress (s.grp c.key).grid).issues + 1 } c.key c.pc
  refine ⟨b1.trans ((Beside.progress ..).trans ((Beside.issues ..).trans (pcMatch_beside ..))), st2, ?_, ?_⟩
  · rw [e2]; show { s1.grp c.key with study := st2 } = _; rw [g1]
  · rw [p2]; show (s1.grp c.key).study.phase = 0; rw [g1]; exact p1

/-! ### Committing -/

/-- Where the lanes go on changes nothing of a group but program counters, slots and a replay. -/
theorem goOn_live (g : Group) (c : Ctx) (o : Op) : (g.goOn c o).live = g.live := by unfold Group.goOn Group.invalidate Group.setPc; dsimp only; split <;> rfl
theorem goOn_study (g : Group) (c : Ctx) (o : Op) : (g.goOn c o).study = g.study := by unfold Group.goOn Group.invalidate Group.setPc; dsimp only; split <;> rfl

theorem countIssue_study (g : Group) : g.countIssue.study = g.study := by unfold Group.countIssue; split <;> rfl

/-- No access, no walk. -/
@[simp] theorem misses_nil (s : State) (c : Ctx) : s.misses c [] = s := rfl

/-- The part of a commit before the effect. -/
theorem commit_before (s : State) (c : Ctx) (act : Mask) (o : Op) (hh : (s.grp c.key).study.phase = 0) :
    let s1 := (s.setGrp c.key ((s.grp c.key).goOn c o)).countIssue c
    let s2 := (o.allRows act).foldl (fun s r => s.logRow c.key (s1.grp c.key).fdepth r) s1
    Beside s s2 c.key ∧ ∃ st, st.phase = 0 ∧ s2.grp c.key = { (s.grp c.key).goOn c o with study := st, age := s.issues } := by
  intro s1 s2
  have e0 : (s.setGrp c.key ((s.grp c.key).goOn c o)).grp c.key = (s.grp c.key).goOn c o := grp_setGrp_same ..
  obtain ⟨b1, st, e1, p1⟩ := countIssue_home (s.setGrp c.key ((s.grp c.key).goOn c o)) c (by rw [e0, goOn_study]; exact hh)
  refine ⟨(Beside.setGrp ..).trans (b1.trans (Beside.foldl _ _ (fun _ _ => Beside.logRow ..) _ _)), st, p1, ?_⟩
  have : s2.groups = s1.groups := groups_foldl _ (fun _ _ => groups_logRow ..) _ _
  have : s2.grp c.key = s1.grp c.key := by unfold State.grp; rw [this]
  rw [this, e1, e0]; rfl

/-- The part of a commit after the effect, for an instruction that does not wait and a group at home. -/
theorem commit_after (s : State) (c : Ctx) (act : Mask) (o : Op) (accs : List Acc) (d : Nat) (hw : o.wait = false)
    (hh : (s.grp c.key).study.phase = 0) (hl : (s.grp c.key).live = true) :
    (s.countSlots c.key o).traceIssue c act o accs d = s.setGrp c.key (s.grp c.key).countIssue := by
  have : s.countSlots c.key o = s.setGrp c.key (s.grp c.key).countIssue := by unfold State.countSlots; simp [hw, hl]
  rw [this]
  unfold State.traceIssue
  dsimp only
  have : (s.grp c.key).countIssue.studied = false := by unfold Group.studied; rw [countIssue_study, hh]; rfl
  rw [grp_setGrp_same, this]
  rfl

/-- What committing an instruction that does not wait does for a group at home, when its effect is a change of the group alone. -/
theorem commit_upd (s : State) (c : Ctx) (act : Mask) (o : Op) (F : Group → Group)
    (hw : o.wait = false) (hk : o.asks = false) (ha : o.after = id) (hh : (s.grp c.key).study.phase = 0) (hl : (s.grp c.key).live = true)
    (hs : ∀ g, (F g).study = g.study) (hv : ∀ g, (F g).live = g.live) :
    Beside s (s.commit c act o [] fun s _ => s.upd c.key F) c.key ∧ ∃ st, st.phase = 0 ∧
      (s.commit c act o [] fun s _ => s.upd c.key F).grp c.key =
        ((if act = 0 ∧ o.always = false then id else F) { (s.grp c.key).goOn c o with study := st, age := s.issues }).countIssue := by
  obtain ⟨b, st, p, e⟩ := commit_before s c act o hh
  unfold State.commit
  rw [hw, hk, ha, misses_nil]
  dsimp only at b e ⊢
  generalize List.foldl _ _ _ = s2 at b e ⊢
  generalize hg : ({ (s.grp c.key).goOn c o with study := st, age := s.issues } : Group) = g1 at e
  have pg : g1.study.phase = 0 := by rw [← hg]; exact p
  have lg : g1.live = true := by rw [← hg]; exact (goOn_live ..).trans hl
  generalize hs3 : (if (decide (act = 0) && !o.always) = true then s2 else s2.upd c.key F : State) = s3
  have b3 : Beside s2 s3 c.key := by
    rw [← hs3]; split
    · exact Beside.refl ..
    · exact Beside.upd ..
  have e3 : s3.grp c.key = (if act = 0 ∧ o.always = false then id else F) g1 := by
    rw [← hs3]
    by_cases h : act = 0 ∧ o.always = false
    · rw [if_pos h, if_pos (by simpa using h), e]; rfl
    · rw [if_neg h, if_neg (by simpa using h), grp_upd_same, e]
  have l3 : (s3.grp c.key).live = true := by rw [e3]; split; exacts [lg, (hv _).trans lg]
  have p3 : (s3.grp c.key).study.phase = 0 := by rw [e3]; split; exacts [pg, (congrArg Study.phase (hs _)).trans pg]
  simp only [Bool.false_and, Bool.false_eq_true, if_false, id_eq]
  rw [commit_after _ _ _ _ _ _ hw p3 l3, grp_setGrp_same]
  exact ⟨b.trans (b3.trans (Beside.setGrp ..)), st, p, by rw [e3, ← hg]⟩

/-! ### Going ahead -/

/-- The context of a group that replays nothing (R39, R40). -/
theorem Ready.ctx_eq {s : State} {c : Ctx} (h : Ready s c) :
    (s.grp s.cur).eligible ≠ 0 ∧ c = { key := s.cur, g := s.grp s.cur, pc := (s.grp s.cur).issuePc, mask := (s.grp s.cur).issueMask } := by
  have ht := h.turn
  have hf := h.first
  unfold State.ctx State.ctxOf at ht
  dsimp only at ht
  split at ht
  · cases ht
  · next e =>
    split at ht
    · next r hr => cases ht; exact absurd hf (by show (s.grp s.cur).replay ≠ none; rw [hr]; simp)
    · cases ht; exact ⟨e, rfl⟩

theorem Ready.grp {s : State} {c : Ctx} (h : Ready s c) : s.grp c.key = c.g := by rw [h.ctx_eq.2]

theorem Ready.live {s : State} {c : Ctx} (h : Ready s c) : c.g.live = true := by
  obtain ⟨e, rfl⟩ := h.ctx_eq
  by_contra hn
  apply e
  unfold Group.eligible
  simp [show (s.grp s.cur).live = false by simpa using hn]

theorem Ready.stall {s : State} {c : Ctx} (h : Ready s c) : c.g.stall = none := by
  obtain ⟨e, rfl⟩ := h.ctx_eq
  by_contra hn
  apply e
  unfold Group.eligible
  · have : (s.grp s.cur).stall.isNone = false := by
      cases hs : (s.grp s.cur).stall with
      | none => exact absurd hs hn
      | some _ => rfl
    simp [this]

theorem exists_lane_of_ne_zero {m : Mask} (h : m ≠ 0) : ∃ l, l ∈ lanesOf m := by
  by_contra hn
  apply h
  apply BitVec.eq_of_getLsbD_eq
  intro i hi
  have : i ∉ lanesOf m := fun e => hn ⟨i, e⟩
  unfold lanesOf has at this
  simp only [List.mem_filter, List.mem_range, not_and, Bool.not_eq_true] at this
  simpa using this hi

/-- The smallest program counter of an eligible lane is that of one of them. -/
theorem issuePc_mem {g : Group} (h : g.eligible ≠ 0) : ∃ l ∈ lanesOf g.eligible, pcOf g.lanes.pc l = g.issuePc := by
  have key : ∀ (ls : List Nat) (a : W64) (P : W64 → Prop), P a → (∀ l ∈ ls, P (pcOf g.lanes.pc l)) →
      P (ls.foldl (fun a l => if (pcOf g.lanes.pc l).toNat < a.toNat then pcOf g.lanes.pc l else a) a) := by
    intro ls
    induction ls with
    | nil => intro a P ha _; exact ha
    | cons x t ih =>
      intro a P ha hl
      apply ih
      · dsimp only
        split
        · exact hl x (by simp)
        · exact ha
      · exact fun l hm => hl l (by simp [hm])
  obtain ⟨l, hl⟩ := exists_lane_of_ne_zero h
  apply key (lanesOf g.eligible) (pcOf g.lanes.pc (lowestOf g.eligible)) (fun x => ∃ l ∈ lanesOf g.eligible, pcOf g.lanes.pc l = x)
  · refine ⟨lowestOf g.eligible, ?_, rfl⟩
    unfold lowestOf
    cases e : lanesOf g.eligible with
    | nil => rw [e] at hl; cases hl
    | cons a t => simp
  · exact fun l hm => ⟨l, hm, rfl⟩

/-- The issue mask of a group that issues names a lane. -/
theorem Ready.mask_ne {s : State} {c : Ctx} (h : Ready s c) : c.mask ≠ 0 := by
  · obtain ⟨e, rfl⟩ := h.ctx_eq
    obtain ⟨l, hm, hl⟩ := issuePc_mem e
    intro h0
    have hb : has (s.grp s.cur).issueMask l = true := by
      unfold lanesOf at hm
      simp only [List.mem_filter, List.mem_range] at hm
      unfold Group.issueMask has maskOf
      have h2 : (s.grp s.cur).eligible.getLsbD l = true := hm.2
      simp only [BitVec.getLsbD_ofFnLE, hm.1, dite_true, hl, BEq.rfl, h2, Bool.and_self]
    rw [show (s.grp s.cur).issueMask = 0 from h0] at hb
    simp [has] at hb

theorem active_none (c : Ctx) : active c none = c.mask := by
  exact BitVec.and_allOnes

/-- An instruction that goes ahead, and that reaches no memory, commits. -/
theorem issue_plain (s : State) (c : Ctx) (gd : Guard) (mk : Ctx → Mask → Op) (eff : Ctx → Mask → State → List Acc → State)
    (h : Ready s c) (hg : Goes s c (active c gd) (mk c (active c gd)))
    (hf : (mk c (active c gd)).fifo = false)
    (hr : (mk c (active c gd)).reqs = []) (hp : (mk c (active c gd)).post = none) :
    issue s gd mk eff = .next ((s.yieldTick c.key).commit c (active c gd) (mk c (active c gd)) [] (eff c (active c gd))) := by
  obtain ⟨hz, hs, hb⟩ := hg
  have hc : (s.yieldTick c.key).checkAll c.g (coreOf c.key) [] = .ok [] := rfl
  have hact : c.mask &&& c.g.guardMask gd = active c gd := rfl
  unfold issue
  simp only [h.turn, hact, h.free]
  simp only [h.pace, hz, hs, hf, Bool.false_and, Bool.or_self, Bool.false_eq_true, if_false, hb, hr, ite_self, hc, hp]

end Sys2Proof
end

