-- ==== Sys2Proof/Laws/Memory.lean ====
section
/-! SUPPORT. Byte memory: what is read after a write, and that every operation keeps the canonical form (LOG 2). -/

namespace Sys2Proof.Machine

/-! ### The canonical form -/

theorem Mem.wf_cons {a : Nat} {v : Byte} {t : Mem} :
    Mem.wf ((a, v) :: t) = true ↔ v ≠ 0 ∧ (∀ c ∈ t, a < c.1) ∧ t.wf = true := by
  induction t generalizing a v with
  | nil => simp [Mem.wf]
  | cons e t ih =>
    obtain ⟨b, w⟩ := e
    constructor
    · intro h
      simp only [Mem.wf, Bool.and_eq_true, bne_iff_ne, decide_eq_true_eq] at h
      obtain ⟨⟨h1, h2⟩, h3⟩ := h
      refine ⟨h1, ?_, h3⟩
      intro c hc
      rcases List.mem_cons.mp hc with rfl | hc
      · exact h2
      · exact lt_trans h2 ((ih.mp h3).2.1 c hc)
    · rintro ⟨h1, h2, h3⟩
      simp only [Mem.wf, Bool.and_eq_true, bne_iff_ne, decide_eq_true_eq]
      exact ⟨⟨h1, h2 (b, w) (by simp)⟩, h3⟩

theorem Mem.wf_filter {m : Mem} (p : Host.Cell → Bool) (h : m.wf = true) : Mem.wf (m.filter p) = true := by
  induction m with
  | nil => rfl
  | cons e t ih =>
    obtain ⟨a, v⟩ := e
    obtain ⟨h1, h2, h3⟩ := Mem.wf_cons.mp h
    simp only [List.filter_cons]
    split
    · exact Mem.wf_cons.mpr ⟨h1, fun c hc => h2 c (List.mem_filter.mp hc).1, ih h3⟩
    · exact ih h3

theorem Mem.insert_mem {m : Mem} {k : Nat} {v : Byte} {c : Host.Cell} (h : c ∈ m.insert k v) : c = (k, v) ∨ c ∈ m := by
  induction m with
  | nil => simpa [Mem.insert] using h
  | cons e t ih =>
    obtain ⟨j, w⟩ := e
    simp only [Mem.insert] at h
    split at h
    · rcases List.mem_cons.mp h with rfl | h
      · exact .inl rfl
      · exact .inr (List.mem_cons_of_mem _ h)
    · split at h
      · rcases List.mem_cons.mp h with rfl | h
        · exact .inl rfl
        · exact .inr h
      · rcases List.mem_cons.mp h with rfl | h
        · exact .inr (by simp)
        · rcases ih h with h | h
          · exact .inl h
          · exact .inr (List.mem_cons_of_mem _ h)

theorem Mem.wf_insert {m : Mem} (k : Nat) {v : Byte} (hv : v ≠ 0) (h : m.wf = true) : Mem.wf (m.insert k v) = true := by
  induction m with
  | nil => exact Mem.wf_cons.mpr ⟨hv, by simp, rfl⟩
  | cons e t ih =>
    obtain ⟨j, w⟩ := e
    obtain ⟨h1, h2, h3⟩ := Mem.wf_cons.mp h
    simp only [Mem.insert]
    split
    · next e => subst e; exact Mem.wf_cons.mpr ⟨hv, h2, h3⟩
    · next e =>
      split
      · next lt =>
        refine Mem.wf_cons.mpr ⟨hv, ?_, h⟩
        intro c hc
        rcases List.mem_cons.mp hc with rfl | hc
        · exact lt
        · exact lt_trans lt (h2 c hc)
      · next nlt =>
        refine Mem.wf_cons.mpr ⟨h1, ?_, ih h3⟩
        intro c hc
        rcases Mem.insert_mem hc with rfl | hc
        · simp only; omega
        · exact h2 c hc

theorem Mem.wf_write {m : Mem} (a : Nat) (b : Byte) (h : m.wf = true) : Mem.wf (m.write a b) = true := by
  unfold Mem.write
  split
  · exact Mem.wf_filter _ h
  · next hb => exact Mem.wf_insert a hb h

theorem Mem.wf_writeN {m : Mem} (a : Nat) (bs : List Byte) (h : m.wf = true) : Mem.wf (m.writeN a bs) = true := by
  induction bs generalizing m a with
  | nil => exact h
  | cons b t ih => exact ih _ (Mem.wf_write a b h)

/-! ### Reading what was written -/

theorem Mem.read_filter {m : Mem} (p : Nat → Bool) (a : Nat) :
    Mem.read (m.filter fun c => p c.1) a = if p a then m.read a else 0 := by
  induction m with
  | nil => simp [Mem.read]
  | cons e t ih =>
    obtain ⟨j, v⟩ := e
    by_cases hj : j = a
    · subst hj
      cases hp : p j <;> simp [Mem.read, hp] at ih ⊢
      exact ih
    · cases hp : p j <;> simp [Mem.read, hp, hj, ih]

theorem Mem.read_insert (m : Mem) (k : Nat) (v : Byte) (a : Nat) : (m.insert k v).read a = if a = k then v else m.read a := by
  induction m with
  | nil => simp [Mem.insert, Mem.read, eq_comm]
  | cons e t ih =>
    obtain ⟨j, w⟩ := e
    simp only [Mem.insert]
    split
    · next h => subst h; by_cases ha : a = k
                · simp [Mem.read, ha]
                · simp [Mem.read, ha, Ne.symm ha]
    · split
      · by_cases ha : a = k
        · simp [Mem.read, ha]
        · simp [Mem.read, ha, Ne.symm ha]
      · simp only [Mem.read, ih]
        by_cases hj : j = a
        · subst hj; rw [if_pos rfl, if_pos rfl, if_neg (fun h => by omega)]
        · simp [hj]

/-- Read after write: the byte at its address, and what was there elsewhere. -/
theorem Mem.read_write (m : Mem) (k : Nat) (v : Byte) (a : Nat) : (m.write k v).read a = if a = k then v else m.read a := by
  unfold Mem.write
  split
  · next h =>
    rw [Mem.read_filter (fun j => j != k)]
    by_cases ha : a = k <;> simp [ha, h]
  · exact Mem.read_insert m k v a

/-- Read after a write of several bytes. -/
theorem Mem.read_writeN (m : Mem) (k : Nat) (bs : List Byte) (a : Nat) :
    (m.writeN k bs).read a = if k ≤ a ∧ a < k + bs.length then bs.getD (a - k) 0 else m.read a := by
  induction bs generalizing m k with
  | nil => simp [Mem.writeN]
  | cons b t ih =>
    simp only [Mem.writeN, ih, Mem.read_write, List.length_cons]
    by_cases h1 : k + 1 ≤ a ∧ a < k + 1 + t.length
    · rw [if_pos h1, if_pos (by omega)]
      obtain ⟨n, hn⟩ : ∃ n, a - k = n + 1 := ⟨a - k - 1, by omega⟩
      rw [hn, show a - (k + 1) = n by omega]; rfl
    · rw [if_neg h1]
      by_cases h2 : a = k
      · subst h2; rw [if_pos rfl, if_pos (by omega)]; simp
      · rw [if_neg h2, if_neg (by omega)]

/-! ### The operations of the machine keep the form -/

@[simp] theorem hostWrite_dev (s : State) (a : Nat) (bs : List Byte) : (s.hostWrite a bs).mem.dev = s.mem.dev := by
  unfold State.hostWrite; split <;> rfl
theorem wf_hostWrite {s : State} (a : Nat) (bs : List Byte) (h : s.mem.host.wf = true) : (s.hostWrite a bs).mem.host.wf = true := by
  unfold State.hostWrite
  split
  · exact Mem.wf_writeN _ _ h
  · exact h

theorem wf_setHomeByte_dev {s : State} (k o : Nat) (b : Byte) (h : s.mem.dev.wf = true) : (s.setHomeByte k o b).mem.dev.wf = true := by
  unfold State.setHomeByte
  split
  · simpa using h
  · exact Mem.wf_write _ _ h
theorem wf_setHomeByte_host {s : State} (k o : Nat) (b : Byte) (h : s.mem.host.wf = true) : (s.setHomeByte k o b).mem.host.wf = true := by
  unfold State.setHomeByte
  split
  · exact wf_hostWrite _ _ h
  · exact h

@[simp] theorem sendFlit_mem (s : State) : s.sendFlit.mem = s.mem := by
  unfold State.sendFlit; dsimp only; repeat' split
  all_goals rfl
theorem wf_hostPuts {s : State} (ws : List (Nat × List Byte)) (h : s.mem.host.wf = true) : (s.hostPuts ws).mem.host.wf = true := by
  induction ws generalizing s with
  | nil => exact h
  | cons w t ih => exact ih (by simpa using wf_hostWrite w.1 w.2 h)

/-- A byte of host memory while the link carries writes. -/
theorem hostRead_up {s : State} (a : Nat) (h : s.mod_.link.state < 2) : s.hostRead a = s.mem.host.read a := by
  simp [State.hostRead, h]

theorem wf_scrWrite {t : Team} (off : Nat) (bs : List Byte) (whole : Nat → Bool) (h : t.scr.wf = true) : (t.scrWrite off bs whole).scr.wf = true :=
  Mem.wf_writeN _ _ h

theorem wf_wipe {s : State} (rs : List (Nat × Nat)) (h : s.mem.dev.wf = true) : (s.wipe rs).mem.dev.wf = true := Mem.wf_filter _ h

theorem wf_setParlour {s : State} (g d : Nat) (m : Mem) (hm : m.wf = true) (h : ∀ p ∈ s.mem.parlours, p.2.wf = true) :
    ∀ p ∈ (s.setParlour g d m).mem.parlours, p.2.wf = true := by
  intro p hp
  rcases List.mem_cons.mp hp with rfl | hp
  · exact hm
  · exact h p (List.mem_filter.mp hp).1

theorem wf_parlour {s : State} (g d : Nat) (h : ∀ p ∈ s.mem.parlours, p.2.wf = true) : (s.parlour g d).wf = true := by
  unfold State.parlour
  split
  · next p hp => exact h p (List.mem_of_find?_eq_some hp)
  · rfl

/-- Reset leaves every memory in the canonical form. -/
theorem wf_reset : State.reset.mem.dev.wf = true ∧ State.reset.mem.host.wf = true ∧ State.reset.mem.parlours = [] ∧ State.reset.teams = [] :=
  ⟨rfl, rfl, rfl, rfl⟩

end Sys2Proof.Machine
end

