-- ==== Sys2Proof/Laws/Registers.lean ====
section
/-! SUPPORT. Rows, slots, scalars and predicates: what is read after a write, and what the shared lane operations leave (`laneRow_issued`). -/

namespace Sys2Proof
open Machine

/-! ### Vectors of lane words -/

theorem lane_eq (v : Vals) {l : Nat} (h : l < 64) : lane v l = v[l] := by
  unfold lane
  rw [List.getD_eq_getElem?_getD, List.getElem?_eq_getElem (by simpa using h)]
  simp
theorem lane_tab (f : Nat → W32) {l : Nat} (h : l < 64) : lane (tab f) l = f l := by
  rw [lane_eq _ h]; simp [tab]
theorem lane_blend (m : Mask) (a b : Vals) {l : Nat} (h : l < 64) : lane (blend m a b) l = if has m l then lane a l else lane b l := by
  rw [lane_eq _ h, lane_eq _ h, lane_eq _ h]; simp [blend]
theorem pcOf_setPcs (m : Mask) (f : Nat → W64) (pc : Vector W64 64) {l : Nat} (h : l < 64) :
    pcOf (setPcs m f pc) l = if has m l then f l else pcOf pc l := by
  unfold pcOf
  rw [List.getD_eq_getElem?_getD, List.getD_eq_getElem?_getD, List.getElem?_eq_getElem (by simpa using h), List.getElem?_eq_getElem (by simpa using h)]
  simp [setPcs]

/-! ### Writing one row -/

theorem row_setRow (g : Group) (d : Nat) (m : Mask) (v : Vals) (r : Nat) :
    (g.setRow d m v).row r = if r = d then ⟨blend m v (g.row d).w, (g.row d).px &&& ~~~ m⟩ else g.row r := by
  unfold Group.row Group.setRow Group.setTop Group.top Frame.setRow
  simp [get_put]
theorem mrow_setRow (g : Group) (d : Nat) (m : Mask) (v : Vals) (r : Nat) : (g.setRow d m v).mrow r = g.mrow r := rfl
theorem sreg_setRow (g : Group) (d : Nat) (m : Mask) (v : Vals) (r : Nat) : (g.setRow d m v).sreg r = g.sreg r := rfl
theorem row_setSlot (g : Group) (b : Nat) (m : Mask) (v : Vals) (r : Nat) : (g.setSlot b m v).row r = g.row r := rfl

/-- The slots of a group. -/
def slotWord (g : Group) (b l : Nat) : W32 := lane (get (Vector.replicate 64 0) g.regs.slots b) l

theorem slot_setSlot (g : Group) (d : Nat) (m : Mask) (v : Vals) (b : Nat) {l : Nat} (h : l < 64) :
    slotWord (g.setSlot d m v) b l = if b = d ∧ has m l then lane v l else slotWord g b l := by
  unfold slotWord Group.setSlot
  simp only [get_put]
  by_cases e : b = d
  · subst e; simp [lane_blend _ _ _ h]
  · simp [e]

/-! ### Results -/

/-- What writing one result row leaves (R115, R116, R144, R438). -/
structure Wrote (g g' : Group) (nw : Bool) (act : Mask) (d : Nat) (v : Nat → W32) : Prop where
  word : ∀ r l, l < 64 → lane (g'.row r).w l = if r = d ∧ has act l ∧ nw = false then v l else lane (g.row r).w l
  poison : ∀ r, (g'.row r).px = if r = d ∧ nw = false then (g.row r).px &&& ~~~ act else (g.row r).px
  slot : ∀ b l, l < 64 → slotWord g' b l = if b = d % 4 ∧ has act l then v l else slotWord g b l
  valid : g'.regs.valid = g.regs.valid ||| BitVec.ofNat 4 (2 ^ (d % 4))
  mrow : g'.mrow = g.mrow
  sreg : g'.sreg = g.sreg
  rest : g' = { g with frames := g'.frames, regs := { g.regs with slots := g'.regs.slots, valid := g'.regs.valid } }
  lower : g'.frames.tail = g.frames.tail
  top : g'.top = { g.top with v := g'.top.v }

theorem result_wrote (g : Group) (nw : Bool) (act : Mask) (d : Nat) (f : Nat → W32) : Wrote g (g.result nw act d (tab f)) nw act d f := by
  unfold Group.result
  cases nw
  · refine ⟨fun r l h => ?_, fun r => ?_, fun b l h => ?_, rfl, rfl, rfl, rfl, rfl, rfl⟩
    · simp only [Bool.false_eq_true, if_false]
      rw [row_setSlot, row_setRow]
      by_cases e : r = d
      · subst e; simp only [if_true, lane_blend _ _ _ h, lane_tab _ h]; by_cases a : has act l = true <;> simp [a]
      · simp [e]
    · simp only [Bool.false_eq_true, if_false]
      rw [row_setSlot, row_setRow]
      by_cases e : r = d
      · subst e; simp
      · simp [e]
    · rw [slot_setSlot _ _ _ _ _ h, lane_tab _ h]; rfl
  · refine ⟨fun r l h => ?_, fun r => ?_, fun b l h => ?_, rfl, rfl, rfl, rfl, rfl, rfl⟩
    · simp [row_setSlot]
    · simp [row_setSlot]
    · rw [slot_setSlot _ _ _ _ _ h, lane_tab _ h]; rfl

/-- What the count of issues changes. -/
theorem countIssue_eq (g : Group) : g.countIssue = { g with regs := { g.regs with
    valid := if 15 ≤ g.regs.count then 0 else g.regs.valid, count := g.countIssue.regs.count } } := by
  unfold Group.countIssue Group.invalidate
  split
  · rfl
  · rfl

/-! ### From the effect on the group to `Issued` -/

theorem goOn_eq (g : Group) (c : Ctx) (o : Op) (hw : o.wait = false) :
    g.goOn c o = { g with lanes := { g.lanes with pc := setPcs c.mask (fun _ => c.pc + BitVec.ofNat 64 o.len) g.lanes.pc }, replay := none } := by
  unfold Group.goOn Group.setPc
  simp only [hw, Bool.false_eq_true, if_false]

/-- An instruction that does not wait and only changes registers of its group by `F`: it commits, and what is left is said by `Registers`. -/
theorem issued_of (s : State) (c : Ctx) (gd : Guard) (mk : Ctx → Mask → Op) (F : Ctx → Mask → Group → Group) (w : Want)
    (hn : w.waits = [] ∧ w.mio = (fun m => m) ∧ w.stall = none) (h : Ready s c) (hg : Goes s c (active c gd) (mk c (active c gd)))
    (hf : (mk c (active c gd)).fifo = false) (ha : (mk c (active c gd)).asks = false)
    (hr : (mk c (active c gd)).reqs = []) (hp : (mk c (active c gd)).post = none) (hw : (mk c (active c gd)).wait = false) (hx : (mk c (active c gd)).after = id)
    (hF : ∀ g, F c (active c gd) g = { g with lanes := { g.lanes with pc := (F c (active c gd) g).lanes.pc },
                                              frames := (F c (active c gd) g).frames, regs := (F c (active c gd) g).regs })
    (regs : ∀ g, g.frames = c.g.frames → g.regs = c.g.regs →
      Registers c.g ((if active c gd = 0 ∧ (mk c (active c gd)).always = false then id else F c (active c gd)) g).countIssue w)
    (onward : ∀ g, (∀ l, l < 64 → pcOf g.lanes.pc l = if has c.mask l then c.pc + BitVec.ofNat 64 (mk c (active c gd)).len else pcOf c.g.lanes.pc l) →
      Onward c ((if active c gd = 0 ∧ (mk c (active c gd)).always = false then id else F c (active c gd)) g) w) :
    ∃ t, issue s gd mk (fun c act s _ => s.upd c.key (F c act)) = .next t ∧ Issued s t c w := by
  rw [issue_plain s c gd mk _ h hg hf hr hp]
  generalize active c gd = act at *
  have gk : (s.yieldTick c.key).grp c.key = c.g := by rw [yieldTick_grp_self, h.grp]
  obtain ⟨b, st, p, e⟩ := commit_upd (s.yieldTick c.key) c act (mk c act) (F c act) hw ha hx
    (by rw [gk]; exact h.home) (by rw [gk]; exact h.live)
    (fun g => by rw [hF g]) (fun g => by rw [hF g])
  refine ⟨_, rfl, ⟨(Beside.yieldTick ..).trans b, ?_, ?_, ?_⟩⟩
  all_goals rw [e, gk]
  all_goals rw [goOn_eq _ _ _ hw]
  all_goals generalize hg1 : ({ c.g with lanes := { c.g.lanes with pc := setPcs c.mask (fun _ => c.pc + BitVec.ofNat 64 (mk c act).len) c.g.lanes.pc }, replay := none, study := st, age := (s.yieldTick c.key).issues } : Group) = g1
  · refine regs g1 ?_ ?_
    · rw [← hg1]
    · rw [← hg1]
  · have hpc : g1.lanes.pc = setPcs c.mask (fun _ => c.pc + BitVec.ofNat 64 (mk c act).len) c.g.lanes.pc := by rw [← hg1]
    have := onward g1 (fun l hl => by rw [hpc, pcOf_setPcs _ _ _ hl])
    rw [countIssue_eq]; exact this
  · rw [countIssue_eq]
    have : ∀ g : Group, (if act = 0 ∧ (mk c act).always = false then id else F c act) g =
        { g with lanes := { g.lanes with pc := ((if act = 0 ∧ (mk c act).always = false then id else F c act) g).lanes.pc },
                 frames := ((if act = 0 ∧ (mk c act).always = false then id else F c act) g).frames,
                 regs := ((if act = 0 ∧ (mk c act).always = false then id else F c act) g).regs } := by
      intro g
      split
      · rfl
      · exact hF g
    unfold Remains
    rw [this g1, ← hg1]
    simp only [hn.1, hn.2.1, hn.2.2, List.append_nil, ← h.stall]

/-! ### The shared lane operations -/

theorem row_frames {g g' : Group} (h : g'.frames = g.frames) : g'.row = g.row := by funext r; unfold Group.row Group.top; rw [h]
theorem mrow_frames {g g' : Group} (h : g'.frames = g.frames) : g'.mrow = g.mrow := by funext r; unfold Group.mrow Group.top; rw [h]
theorem sreg_frames {g g' : Group} (h : g'.frames = g.frames) (h' : g'.regs = g.regs) : g'.sreg = g.sreg := by
  funext r; unfold Group.sreg Group.top; rw [h, h']

/-- Two groups with the same frames, and the same registers but for the account of the slots. -/
theorem Registers.count {g g' : Group} {w : Want} (hw : w.wait = false) (hc : g'.regs.count = g.regs.count)
    (hv : g'.regs.valid = if w.act = 0 then g.regs.valid else w.rows.foldl (fun v x => v ||| BitVec.ofNat 4 (2 ^ (x.1 % 4))) g.regs.valid)
    (word : ∀ r l, l < 64 → lane (g'.row r).w l = match w.row r with
      | some v => if has w.act l && !w.nw then v l else lane (g.row r).w l
      | none => lane (g.row r).w l)
    (poison : ∀ r, (g'.row r).px = match w.row r with
      | some _ => if w.nw then (g.row r).px else (g.row r).px &&& ~~~ w.act
      | none => (g.row r).px)
    (mword : ∀ r l, l < 64 → lane (g'.mrow r).w l = match w.mrow r with
      | some (m, v) => if has m l then v l else lane (g.mrow r).w l
      | none => lane (g.mrow r).w l)
    (mpoison : ∀ r, (g'.mrow r).px = match w.mrow r with
      | some (m, _) => (g.mrow r).px &&& ~~~ m
      | none => (g.mrow r).px)
    (scalar : ∀ r, g'.sreg r = match w.sc with
      | some (d, v) => if r = d then ⟨v, false⟩ else g.sreg r
      | none => g.sreg r)
    (pred : ∀ p, g'.pred p = match w.pred with
      | some (d, v) => if p = d then (v &&& w.act) ||| (g.pred p &&& ~~~ w.act) else g.pred p
      | none => g.pred p)
    (slot : ∀ b l, b < 4 → l < 64 → slotWord g' b l = match w.slot b with
      | some v => if has w.act l then v l else slotWord g b l
      | none => slotWord g b l)
    (system : g'.regs = { g.regs with gs := g'.regs.gs, p := g'.regs.p, slots := g'.regs.slots, valid := g'.regs.valid })
    (lower : g'.frames.tail = g.frames.tail) (top : g'.top = { g.top with v := g'.top.v, m := g'.top.m, sc := g'.top.sc }) :
    Registers g g'.countIssue w := by
  rw [countIssue_eq]
  have away : g.top.away = g'.top.away := by rw [top]
  refine ⟨word, poison, mword, mpoison, scalar, pred, ?_, slot, ?_, lower, top.trans
    (congrArg (fun a => ({ g.top with v := g'.top.v, m := g'.top.m, sc := g'.top.sc, away := a } : Frame)) away)⟩
  · simp only [hw, hc, Bool.false_or, decide_eq_true_eq, hv]
  · show ({ g'.regs with valid := _, count := _ } : Regs) = _
    rw [system]

theorem laneRow_issued (s : State) (c : Ctx) (gd : Guard) (len : Nat) (srcs : List (VSrc × Nat)) (nw : Bool) (d : VReg) (f : Group → Nat → W32)
    (h : Ready s c) (hg : Goes s c (active c gd) { len := len, srcs := srcs, dsts := [(d.val, 1)], nw := nw }) :
    ∃ t, laneRow s gd len srcs nw d f = .next t ∧
      Issued s t c { len := len, act := active c gd, rows := [(d.val, f c.g)], nw := nw } := by
  unfold laneRow
  refine issued_of s c gd (fun _ _ => { len := len, srcs := srcs, dsts := [(d.val, 1)], nw := nw })
    (fun c act g => g.result nw act d.val (tab (f c.g))) _ ⟨rfl, rfl, rfl⟩ h hg rfl rfl rfl rfl rfl rfl ?_ ?_ ?_
  · intro g; rw [(result_wrote g nw (active c gd) d.val (f c.g)).rest]
  · intro g e1 e2
    have r := result_wrote g nw (active c gd) d.val (f c.g)
    have row : g.row = c.g.row := row_frames e1
    have mrow : g.mrow = c.g.mrow := mrow_frames e1
    have sreg : g.sreg = c.g.sreg := sreg_frames e1 e2
    by_cases ha : active c gd = 0
    · simp only [ha, true_and, if_true, id]
      have z : ∀ l, has (0 : Mask) l = false := fun l => by simp [has]
      apply Registers.count <;> simp only [e1, e2, if_true, Want.row, Want.slot, Want.mrow, List.find?, Option.map, row, mrow, sreg, z]
      · intro r l _; by_cases e : (d.val == r) = true <;> simp [e]
      · intro r; by_cases e : (d.val == r) = true
        · simp only [e]; cases nw <;> simp
          rw [show (18446744073709551615#64 : BitVec 64) = BitVec.allOnes 64 by decide, BitVec.and_allOnes]
        · simp [e]
      · intro r l; simp
      · intro r; simp
      · intro r; simp
      · intro p; unfold Group.pred; rw [e2]
      · intro b l _ _; unfold slotWord; rw [e2]; by_cases e : (d.val % 4 == b) = true <;> simp [e]
      · unfold Group.top; rw [e1]
    · simp only [ha, false_and, if_false]
      generalize hG : g.result nw (active c gd) d.val (tab (f c.g)) = G at r
      apply Registers.count <;> try simp only [ha, if_false, Want.row, Want.slot, Want.mrow, List.find?, Option.map]
      · rw [r.rest, e2]
      · rw [r.valid, e2]; rfl
      · intro x l hl; rw [r.word x l hl, row]
        by_cases e : x = d.val
        · subst e; simp
        · have : (d.val == x) = false := by simpa using Ne.symm e
          simp [e, this]
      · intro x; rw [r.poison x, row]
        by_cases e : x = d.val
        · subst e; cases nw <;> simp
        · have : (d.val == x) = false := by simpa using Ne.symm e
          simp [e, this]
      · intro x l hl; rw [r.mrow, mrow]
      · intro x; rw [r.mrow, mrow]
      · intro x; rw [r.sreg, sreg]
      · intro p; unfold Group.pred; rw [r.rest, e2]
      · intro b l _ hl; rw [r.slot b l hl]
        have : slotWord g b l = slotWord c.g b l := by unfold slotWord; rw [e2]
        rw [this]
        by_cases e : b = d.val % 4
        · subst e; simp
        · have : (d.val % 4 == b) = false := by simpa using Ne.symm e
          simp [e, this]
      · rw [r.rest, e2]
      · rw [r.lower, e1]
      · rw [r.top]; unfold Group.top; rw [e1]
  · intro g hp
    have r := result_wrote g nw (active c gd) d.val (f c.g)
    intro l hl
    split
    · simpa using hp l hl
    · show pcOf (g.result nw (active c gd) d.val (tab (f c.g))).lanes.pc l = _
      rw [r.rest]; simpa using hp l hl

end Sys2Proof
end

