-- ==== Sys2Proof/Tests/Slice0.lean ====
section
/-! SUPPORT. Tests: what the checks refuse, the worked encodings of the spec, the spec's worked values, and for each statement a state that meets its
hypotheses. Expected values come from the spec's tables and examples, or by hand from its rules. -/

set_option maxRecDepth 8000

namespace Sys2Proof.Tests
set_option Elab.async false
open Sys2Proof Sys2Proof.Machine Sys2Proof.Claims

/-! ### Ill-formed terms that the checks refuse -/

/-- R119: ty 11 names pairs. -/
theorem test_wf_pairs : (Instr.add ⟨.p64, .row 4, .row 2, false, 7, none⟩).wf = false ∧ (Instr.add ⟨.p64, .row 5, .row 2, false, 6, none⟩).wf = false ∧
    (Instr.fma ⟨.f64, .row 4, .slot 1, false, 6, none⟩).wf = false ∧ (Instr.sel ⟨true, .row 4, .row 3, false, 6, 0⟩).wf = false ∧
    (Instr.mov ⟨true, .row 1, false, 6, none⟩).wf = false := by decide +kernel
/-- R154: `ltz` and `gez` have no second operand; R123: pairs of `cvt`. -/
theorem test_wf_compares : (Instr.setp ⟨.i32, .row 1, .row 2, 6, 0, none⟩).wf = false ∧ (Instr.setp ⟨.i64, .row 0, .row 2, 7, 0, none⟩).wf = true ∧
    (Instr.setp ⟨.f64, .row 1, .row 2, 0, 0, none⟩).wf = false ∧ (Instr.setpi ⟨1, .row 2, 6, 0, none⟩).wf = false ∧
    (Instr.cvt ⟨.rn, 32, .row 0, false, 3, none⟩).wf = false ∧ (Instr.cvt ⟨.rn, 34, .row 1, false, 3, none⟩).wf = false := by decide +kernel
/-- R112, R117, R129: runs, compact sources, frames. -/
theorem test_wf_fields : (Instr.cvtnPk ⟨.row 0, .row 6, false, 1, none⟩).wf = false ∧ (Instr.cvtnUnpk ⟨.row 0, .row 6, false, 2, none⟩).wf = false ∧
    (Instr.cvtnBscale ⟨.row 0, .slot 0, false, 1, none⟩).wf = false ∧ (Instr.addCompact ⟨.row 28, 3⟩).wf = false ∧ (Instr.movCompact ⟨.row 0, 0⟩).wf = false ∧
    (Instr.call ⟨0, 0, 0, 0⟩).wf = false ∧ (Instr.calli ⟨0, 5, 0, 4⟩).wf = false ∧ (Instr.mx ⟨.row 0, 0, 2, 4⟩).wf = false := by decide +kernel
/-- R126 to R132, R220: pairs and runs of memory and pantry instructions; R135: the registers that `ssr` may name. -/
theorem test_wf_memory : (Instr.ld64 ⟨.row 0, 0, 3, none⟩).wf = false ∧ (Instr.st128 ⟨.row 0, 0, .row 2, none⟩).wf = false ∧
    (Instr.lds128 ⟨false, .row 0, 58, none⟩).wf = false ∧ (Instr.ldAcq32 ⟨false, .row 1, 0, .team⟩).wf = false ∧ (Instr.stRel64 ⟨.row 0, .row 1, .team⟩).wf = false ∧
    (Instr.atomAdd64 ⟨.row 0, 1, .team⟩).wf = false ∧ (Instr.atomCas32 ⟨.row 0, 1, .team⟩).wf = false ∧ (Instr.atomCas64 ⟨.row 0, 58, .team⟩).wf = false ∧
    (Instr.redAdd32 ⟨.row 1, .row 0, .team⟩).wf = false ∧ (Instr.pdep (.row 48) 0).wf = false ∧ (Instr.ptake ⟨false, .row 0, 2, 0⟩).wf = false ∧
    (Instr.ssr .lane 0).wf = false ∧ (Instr.poison (.row 3) none).wf = false ∧ (Instr.mst ⟨0, .row 3⟩).wf = false := by decide +kernel

/-! ### The spec's worked encodings, bit by bit (R117, R118 and the tables of the programs) -/

/-- V3 and its relatives. -/
theorem test_decode_v3 : decode 0x3E0C2803 = .ok (.add ⟨.w32, .slot 2, .row 3, false, 5, none⟩) ∧ decode 0xF2C18003 = .ok (.add ⟨.p64, .row 50, .row 48, false, 48, none⟩) ∧
    decode 0x27408021 = .ok (.shr ⟨.w32, .row 39, .row 16, false, 16, none⟩) ∧ decode 0x4608103D = .ok (.fsub ⟨.f16, .row 6, .row 2, false, 2, none⟩) ∧
    decode 0x040C3041 = .ok (.fma ⟨.f32, .row 4, .row 3, false, 6, none⟩) ∧ decode 0x03087841 = .ok (.fma ⟨.f32, .row 3, .row 2, false, 15, none⟩) ∧
    decode 0x09143051 = .ok (.fneg ⟨.row 5, false, 6, none⟩) ∧ decode 0xCD005859 = .ok (.shflXor ⟨.row 13, .row 0, false, 11, none⟩) ∧
    decode 0x47087859 = .ok (.shflUp ⟨.row 7, .row 2, false, 15, none⟩) ∧ decode 0x0008205D = .ok (.redx ⟨.addInt, .row 2, false, 4, none⟩) ∧
    decode 0x0018385D = .ok (.redx ⟨.addInt, .row 6, false, 7, none⟩) := by decide +kernel
/-- VI, C16, MV, SS, SI. -/
theorem test_decode_small : decode 0x40002031 = .ok (.xori ⟨64, .row 0, false, 4, none⟩) ∧ decode 0x00007939 = .ok (.movi ⟨0, false, 15, some 1⟩) ∧
    decode 0x10E2 = .ok (.addCompact ⟨.row 2, 7⟩) ∧ decode 0x1842 = .ok (.addCompact ⟨.row 3, 2⟩) ∧ decode 0x1862 = .ok (.addCompact ⟨.row 3, 3⟩) ∧
    decode 0xE8FC = .ok (.addq ⟨-3, 7⟩) ∧ decode 0x3030 = .ok (.faddCompact ⟨.row 6, 1⟩) ∧ decode 0x00562061 = .ok (.smovv ⟨0, 11, .row 4, none⟩) ∧
    decode 0x312B5863 = .ok (.ssar ⟨9, 11, 11⟩) ∧ decode 0xFE20806B = .ok (.slx ⟨0xFE20, 16⟩) := by decide +kernel
/-- Control. -/
theorem test_decode_control : decode 0xFFFFA26D = .ok (.bra 0x1FFFF4 (some 3)) ∧ decode 0x0000236D = .ok (.bra 4 (some 5)) ∧
    decode 0x0020386F = .ok (.brs 4 .eqz 7) ∧ decode 0x0021486F = .ok (.brs 4 .nez 9) ∧ decode 0x00403071 = .ok (.call ⟨0, 2, 0, 6⟩) ∧
    decode 0x09626073 = .ok (.calli ⟨9, 3, 1, 12⟩) ∧ decode 0x00000875 = .ok (.ret 1) ∧ decode 0x000010F5 = .ok (.unwind 2) ∧ decode 0x00000275 = .ok .exit ∧
    decode 0x000002F5 = .ok .yield ∧ decode 0x00000375 = .ok .nop ∧ decode 0x00001C75 = .ok (.brk 3) ∧ decode 0x000004F5 = .ok .rti ∧
    decode 0x00000D75 = .ok (.suspect 1) ∧ decode 0xFFFA2877 = .ok (.loop (-6) 5) ∧ decode 0xFFFB4077 = .ok (.loop (-5) 8) ∧
    decode 0xFFE24877 = .ok (.loop (-30) 9) := by decide +kernel
/-- M, ML and X. -/
theorem test_decode_memory : decode 0x50481079 = .ok (.ld64 ⟨.row 1, 4, 2, none⟩) ∧ decode 0x8014217B = .ok (.stl32 ⟨0, 10, .row 4, some 1⟩) ∧
    decode 0x801E107B = .ok (.stl32 ⟨0, 15, .row 2, none⟩) ∧ decode 0x8008187B = .ok (.stl32 ⟨0, 4, .row 3, none⟩) ∧
    decode 0x0108307D = .ok (.lds64 ⟨false, .row 4, 6, none⟩) ∧ decode 0x0258007D = .ok (.lds128 ⟨false, .row 44, 0, none⟩) ∧
    decode 0x0402107D = .ok (.sts64 ⟨.row 1, .row 2, none⟩) ∧ decode 0x09148A7D = .ok (.ldAcq32 ⟨false, .row 10, 17, .pkg⟩) ∧
    decode 0x0B18727D = .ok (.stRel32 ⟨.row 12, .row 14, .pkg⟩) ∧ decode 0x0D08327D = .ok (.atomAdd32 ⟨.row 4, 6, .pkg⟩) ∧
    decode 0x3C00007D = .ok (.bar .team) ∧ decode 0x3C00017D = .ok (.bar .die) ∧ decode 0x4110007D = .ok (.semWait 8 0) ∧
    decode 0x4200487D = .ok (.hpush ⟨9, 0⟩) ∧ decode 0x4300487D = .ok (.hpop ⟨9, 0⟩) ∧ decode 0x450011FD = .ok (.enqCopy ⟨.row 2, some 2⟩) := by decide +kernel
/-- Pantry, system and matrix instructions. -/
theorem test_decode_rest : decode 0x4F00017D = .ok (.pdep (.row 0) 2) ∧ decode 0x5040817D = .ok (.pcopy ⟨false, .row 32, 16, 2⟩) ∧
    decode 0x5140817D = .ok (.ptake ⟨false, .row 32, 16, 2⟩) ∧ decode 0x51C0817D = .ok (.ptake ⟨true, .row 32, 16, 2⟩) ∧
    decode 0x520A207D = .ok (.gsr .teamX 4) ∧ decode 0x522A487D = .ok (.gsr .rbk 9) ∧ decode 0x5302087D = .ok (.gsrv false .tid 1) ∧
    decode 0x5500307D = .ok (.clk 6) ∧ decode 0x579018FD = .ok (.spool 200 3) ∧ decode 0x5908007D = .ok (.poison (.row 4) none) ∧
    decode 0xA028007F = .ok (.mx ⟨.row 40, 0, 20, 0⟩) ∧ decode 0x0081827F = .ok (.mst ⟨1, .row 48⟩) := by decide +kernel
/-- R133, R413: what is illegal, and its kind. -/
theorem test_decode_illegal : decode 0x00000001 = .bad 0x0101 ∧ decode 0x3E0C2F83 = .bad 0x0104 ∧ decode 0x3E0DE803 = .bad 0x0105 ∧ decode 0xFE0C2803 = .bad 0x0106 ∧
    decode 0x0000 = .bad 0x0101 := by decide +kernel

/-! ### A state for the tests -/

/-- A launch card with one role of one group (60 v rows, 8 · 16 m rows), 64 KiB of scratchpad, four semaphores, a pool of one entry, and
window 0 and pantry region 0 bound (R180, R299). -/
def card0 : List Byte :=
  setField (setField (setField (setField (setField (setField (zeros 256) 72 4 0x10001) 4 1 1) 6 2 0x0104) 20 4 65536) 40 2 1) 48 3 0x083C01
/-- Its bindings: window 0 is 256 bytes at 0x8000 and pantry region 0 starts at 0x100000 (R300). -/
def bind0 : List Byte := leBytes 8 0x8000 ++ leBytes 8 256 ++ zeros 240 ++ leBytes 8 0x100000 ++ zeros 120
/-- The pool entry: a routine of six v rows at 0x3000. -/
def entry0 : List Byte := setField (setField (zeros 16) 0 2 0x0601) 8 8 0x3000
/-- Full function with a group of 64 lanes at address 0, in a frame of 60 v rows and 128 m rows, on die 0, core 0; the first GiB of device memory is mapped
at address 0 (root table at 0x20000). -/
def s0 : State :=
  let s := State.reset.withFetchWord 32 0
  { s with
    grids := [(1, { noGrid with num := 1, card := card0, bind := bind0, pool := [entry0] })]
    spaces := [(0, { root := some 0x20000 })]
    cores := []
    mem := { s.mem with dev := (s.mem.dev.writeN 0x20000 (leBytes 8 0x21001)).writeN 0x21000 (leBytes 8 0xF) }
    dies := [(0, { s.die 0 with inService := true }), (1, { inService := true }), (2, { inService := true }), (3, { inService := true })]
    mod_ := { s.mod_ with stage := 2, verified := true } }
/-- Its issue. -/
def c0 : Ctx := ⟨0, fetchGroup, 0, BitVec.allOnes 64⟩
/-- It goes ahead. -/
def Meets (i : Instr) (o : Op) : Prop := i.wf = true ∧ Ready s0 c0 ∧ Goes s0 c0 (active c0 none) o

theorem ready0 : Ready s0 c0 := ⟨by rfl, by decide +kernel, by decide +kernel, by decide +kernel, by rfl⟩
theorem goes0 {o : Op} (h : (s0.hazard 0 (active c0 none) o == false && o.stall == false && c0.g.faultBefore (active c0 none) o == none) = true) : Goes s0 c0 (active c0 none) o := by
  simp only [Bool.and_eq_true, beq_iff_eq] at h
  exact ⟨h.1.1, h.1.2, h.2⟩
theorem meets {i : Instr} {o : Op} (h : (i.wf && (s0.hazard 0 (active c0 none) o == false && o.stall == false && c0.g.faultBefore (active c0 none) o == none)) = true) : Meets i o := by
  rw [Bool.and_eq_true] at h
  exact ⟨h.1, ready0, goes0 h.2⟩

/-! ### Values -/

/-- The test state with the group changed. -/
def with0 (f : Group → Group) : State := { s0 with groups := put s0.groups 0 (f fetchGroup) }
/-- The state after an instruction. -/
def after (i : Instr) (s : State) : State := match exec i s with
  | .next t => t
  | _ => s
/-- v rows with the same word in every lane. -/
def rows (l : List (Nat × W32)) (g : Group) : Group := l.foldl (fun g x => g.setRow x.1 (BitVec.allOnes 64) (tab fun _ => x.2)) g
/-- Scalars. -/
def scs (l : List (Nat × W64)) (g : Group) : Group := l.foldl (fun g x => g.setSc x.1 ⟨x.2, false⟩) g
/-- Row d in lane 5 after an instruction on v1 = x, v2 = y, v3 = z, v4 = w. -/
def lane5 (i : Instr) (x y z w : W32) (d : Nat) : W32 := lane (((after i (with0 (rows [(1, x), (2, y), (3, z), (4, w)]))).grp 0).row d).w 5
/-- v3 of a three-operand instruction on v1 = x, v2 = y, v3 = z. -/
def op3 (mk : V3 IntTy → Instr) (ty : IntTy) (x y z : W32) : W32 := lane5 (mk ⟨ty, .row 2, .row 1, false, 3, none⟩) x y z 0 3
/-- The float form. -/
def flo3 (mk : V3 FloTy → Instr) (ty : FloTy) (x y z : W32) : W32 := lane5 (mk ⟨ty, .row 2, .row 1, false, 3, none⟩) x y z 0 3
/-- v3 of a unary on v1. -/
def un (mk : U1 → Instr) (x : W32) : W32 := lane5 (mk ⟨.row 1, false, 3, none⟩) x 0 0 0 3
/-- s3 after a scalar operation on s1 = x, s2 = y. -/
def sop (mk : SS → Instr) (x y : W64) : W64 := ((after (mk ⟨2, 1, 3⟩) (with0 (scs [(1, x), (2, y)]))).grp 0).s 3

/-- R84, R149: wrapping sums, differences and products, the high halves, a multiply-add into d. -/
theorem test_int_arithmetic : op3 .add .w32 0xFFFFFFFF 2 0 = 1 ∧ op3 .sub .w32 1 2 0 = 0xFFFFFFFF ∧ op3 .mul .w32 0x10001 0x10001 0 = 0x20001 ∧
    op3 .mulhS .w32 0xFFFFFFFF 2 0 = 0xFFFFFFFF ∧ op3 .mulhZ .w32 0xFFFFFFFF 2 0 = 1 ∧ op3 .mad .w32 3 5 7 = 22 := by decide +kernel
/-- R83: a carry stays in its element. -/
theorem test_int_layouts : op3 .add .h16 0xFFFF0001 0x0001FFFF 0 = 0 ∧ op3 .add .b8 0xFF01807F 0x01FF8001 0 = 0x80 ∧
    op3 .mulhS .b8 0x80 0x80 0 = 0x40 ∧ op3 .adds .b8 0x7F80 0x0180 0 = 0x7F80 := by decide +kernel
/-- R149: signed and unsigned orders, saturation. -/
theorem test_int_order : op3 .minS .w32 0xFFFFFFFF 1 0 = 0xFFFFFFFF ∧ op3 .minZ .w32 0xFFFFFFFF 1 0 = 1 ∧ op3 .maxS .w32 0xFFFFFFFF 1 0 = 1 ∧
    op3 .maxZ .w32 0xFFFFFFFF 1 0 = 0xFFFFFFFF ∧ op3 .adds .w32 0x7FFFFFFF 1 0 = 0x7FFFFFFF ∧ op3 .subs .w32 0x80000000 1 0 = 0x80000000 := by decide +kernel
/-- R149: `andn` clears the bits of b. -/
theorem test_int_logic : op3 .and .w32 0xC 0xA 0 = 8 ∧ op3 .or .w32 0xC 0xA 0 = 14 ∧ op3 .xor .w32 0xC 0xA 0 = 6 ∧ op3 .andn .w32 0xC 0xA 0 = 4 := by decide +kernel
/-- R149: a shift by the width or more gives 0 or the sign; a rotation is taken modulo the width. -/
theorem test_int_shifts : op3 .shl .w32 1 31 0 = 0x80000000 ∧ op3 .shl .w32 1 32 0 = 0 ∧ op3 .shr .w32 0x80000000 32 0 = 0 ∧
    op3 .sar .w32 0x80000000 40 0 = 0xFFFFFFFF ∧ op3 .rotl .w32 0x80000001 33 0 = 3 ∧ op3 .sar .h16 0x80000000 0x000F0000 0 = 0xFFFF0000 := by decide +kernel
/-- R145: a pair is one 64-bit element, the even row its low word. -/
theorem test_int_pairs : lane5 (.add ⟨.p64, .row 2, .row 4, false, 6, none⟩) 0 0xFFFFFFFF 0 1 6 = 0 ∧
    lane5 (.add ⟨.p64, .row 2, .row 4, false, 6, none⟩) 0 0xFFFFFFFF 0 1 7 = 1 := by decide +kernel
/-- R151: `addi` and `movi` sign-extend their immediate, the logic forms zero-extend it. -/
theorem test_int_immediates : lane5 (.addi ⟨0xFF, .row 1, false, 3, none⟩) 5 0 0 0 3 = 4 ∧ lane5 (.andi ⟨0x80, .row 1, false, 3, none⟩) 0xFFFFFFFF 0 0 0 3 = 0x80 ∧
    lane5 (.ori ⟨1, .row 1, false, 3, none⟩) 2 0 0 0 3 = 3 ∧ lane5 (.xori ⟨0xFF, .row 1, false, 3, none⟩) 0 0 0 0 3 = 0xFF ∧
    lane5 (.shli ⟨31, .row 1, false, 3, none⟩) 3 0 0 0 3 = 0x80000000 ∧ lane5 (.shri ⟨4, .row 1, false, 3, none⟩) 0x80000000 0 0 0 3 = 0x08000000 ∧
    lane5 (.sari ⟨4, .row 1, false, 3, none⟩) 0x80000000 0 0 0 3 = 0xF8000000 ∧ lane5 (.movi ⟨0x80, false, 3, none⟩) 0 0 0 0 3 = 0xFFFFFF80 := by decide +kernel
/-- R157: unaries; `abs` of the least number is that number. -/
theorem test_int_unary : un (fun f => .abs ⟨false, f.a, f.nw, f.d, f.g⟩) 0x80000000 = 0x80000000 ∧ un (fun f => .neg ⟨false, f.a, f.nw, f.d, f.g⟩) 1 = 0xFFFFFFFF ∧
    un (fun f => .not ⟨false, f.a, f.nw, f.d, f.g⟩) 0xF0 = 0xFFFFFF0F ∧ un .clz 0 = 32 ∧ un .clz 0x00010000 = 15 ∧ un .popc 0xF00F0001 = 9 ∧
    un .brev 1 = 0x80000000 := by decide +kernel
/-- R117, R172: the compact forms. -/
theorem test_compact : lane5 (.addCompact ⟨.row 1, 3⟩) 5 0 7 0 3 = 12 ∧ lane5 (.subCompact ⟨.row 1, 3⟩) 5 0 7 0 3 = 2 ∧ lane5 (.shlCompact ⟨.row 1, 3⟩) 4 0 1 0 3 = 16 ∧
    lane5 (.mulCompact ⟨.row 1, 3⟩) 5 0 7 0 3 = 35 ∧ lane5 (.minCompact ⟨.row 1, 3⟩) 0xFFFFFFFF 0 7 0 3 = 0xFFFFFFFF ∧ lane5 (.addq ⟨-3, 3⟩) 0 0 1 0 3 = 0xFFFFFFFE ∧
    lane5 (.movq ⟨-16, 3⟩) 0 0 1 0 3 = 0xFFFFFFF0 ∧ ((after (.movq ⟨1, 3⟩) s0).grp 0).lanes.pc[5] = 2 := by decide +kernel
/-- R86, R152: f32 sums round to nearest even; subnormals are kept. -/
theorem test_float : flo3 .fadd .f32 0x3F800000 0x40000000 0 = 0x40400000 ∧ flo3 .fadd .f32 0x4B800000 0x3F800000 0 = 0x4B800000 ∧
    flo3 .fmul .f32 0x00000001 0x40000000 0 = 2 ∧ flo3 .fsub .f32 0x3F800000 0x3F800000 0 = 0 ∧ flo3 .fma .f32 0x40000000 0x40400000 0xBF800000 = 0x40A00000 ∧
    flo3 .fadd .f32 0x7F7FFFFF 0x7F7FFFFF 0 = 0x7F800000 ∧ flo3 .fadd .f16 0x3C003C00 0x3C004000 0 = 0x40004200 ∧
    flo3 .fmul .bf16 0x3F804000 0x40004040 0 = 0x400040C0 := by decide +kernel
/-- R87, R152: `fmin` and `fmax` prefer the number to the NaN, and −0 is below +0. -/
theorem test_float_minmax : flo3 .fmin .f32 0x7FC00000 0x3F800000 0 = 0x3F800000 ∧ flo3 .fmax .f32 0x80000000 0 0 = 0 ∧ flo3 .fmin .f32 0x80000000 0 0 = 0x80000000 := by
  decide +kernel
/-- R153: two f16 products and the sum in f32. -/
theorem test_fdot2 : lane5 (.fdot2 ⟨true, .row 2, .row 1, false, 3, none⟩) 0x3F804000 0x40004040 0x3F800000 0 3 = 0x41100000 ∧
    lane5 (.fdot2 ⟨false, .row 2, .row 1, false, 3, none⟩) 0x3C004000 0x40004200 0x3F800000 0 3 = 0x41100000 := by decide +kernel
/-- R154, R155, R156: predicates and selection. -/
def pred5 (i : Instr) (f : Group → Group) (p : PReg) : Bool := has (((after i (with0 f)).grp 0).pred p) 5
theorem test_setp : pred5 (.setp ⟨.i32, .row 2, .row 1, 2, 3, none⟩) (rows [(1, 0xFFFFFFFF), (2, 1)]) 3 = true ∧
    pred5 (.setp ⟨.f32, .row 2, .row 1, 0, 3, none⟩) (rows [(1, 0x80000000), (2, 0)]) 3 = true ∧
    pred5 (.setp ⟨.f32, .row 2, .row 1, 1, 3, none⟩) (rows [(1, 0x7FC00000), (2, 0)]) 3 = true ∧
    pred5 (.setp ⟨.f32, .row 2, .row 1, 3, 3, none⟩) (rows [(1, 0x7FC00000), (2, 0)]) 3 = false ∧
    pred5 (.setpi ⟨63, .row 1, 0, 3, none⟩) (rows [(1, 0xFFFFFFFF)]) 3 = true := by decide +kernel
/-- A predicate that holds in all lanes. -/
def pset (l : List PReg) (g : Group) : Group := l.foldl (fun g p => g.setPred p (BitVec.allOnes 64) (BitVec.allOnes 64)) g
theorem test_pred_logic : pred5 (.pandn ⟨1, 0, 3, none⟩) (pset [0]) 3 = true ∧ pred5 (.pand ⟨1, 0, 3, none⟩) (pset [0]) 3 = false ∧
    pred5 (.por ⟨1, 0, 3, none⟩) (pset [0]) 3 = true ∧ pred5 (.pxor ⟨1, 0, 3, none⟩) (pset [0, 1]) 3 = false ∧ pred5 (.pnot ⟨0, 3, none⟩) (pset [0]) 3 = false ∧
    pred5 (.pmov ⟨0, 3, none⟩) (pset [0]) 3 = true ∧ pred5 (.pset ⟨3, none⟩) id 3 = true ∧ pred5 (.pclr ⟨0, none⟩) (pset [0]) 0 = false := by decide +kernel
theorem test_sel : lane (((after (.sel ⟨false, .row 2, .row 1, false, 3, 0⟩) (with0 fun g => pset [0] (rows [(1, 7), (2, 8)] g))).grp 0).row 3).w 5 = 7 ∧
    lane (((after (.sel ⟨false, .row 2, .row 1, false, 3, 1⟩) (with0 fun g => pset [0] (rows [(1, 7), (2, 8)] g))).grp 0).row 3).w 5 = 8 := by decide +kernel
/-- R114: lanes in which the guard does not hold keep their word. -/
theorem test_guard : let t := after (.movi ⟨1, false, 3, some 0⟩) (with0 fun g => (rows [(3, 9)] g).setPred 0 (BitVec.allOnes 64) 0x20)
    lane ((t.grp 0).row 3).w 5 = 1 ∧ lane ((t.grp 0).row 3).w 6 = 9 ∧ (t.grp 0).lanes.pc[6] = 4 := by decide +kernel
/-- R116: a result is in the slot of its row modulo 4, and with nw = 1 only there; a source that reads an invalid slot faults. -/
theorem test_slots : let t := after (.movi ⟨5, true, 6, none⟩) s0
    lane ((t.grp 0).row 6).w 5 = 0 ∧ lane (get (Vector.replicate 64 0) (t.grp 0).regs.slots 2) 5 = 5 ∧ (t.grp 0).regs.valid = 4 ∧
    ((after (.add ⟨.w32, .slot 1, .row 0, false, 1, none⟩) s0).grp 0).park.map (fun p => p.flt.kind) = some 0x0301 := by decide +kernel
/-- R164: fields of position and length; `bfi` inserts. -/
theorem test_fields : lane5 (.bfxS ⟨.row 2, .row 1, false, 3, none⟩) 0x80 0x0004 0 0 3 = 0 ∧ lane5 (.bfxS ⟨.row 2, .row 1, false, 3, none⟩) 0x80 0x0304 0 0 3 = 0xFFFFFFF8 ∧
    lane5 (.bfxZ ⟨.row 2, .row 1, false, 3, none⟩) 0xABCD1234 0x0F10 0 0 3 = 0xABCD ∧ lane5 (.bfi ⟨.row 2, .row 1, false, 3, none⟩) 0xF 0x0304 0xFFFFFF0F 0 3 = 0xFFFFFFFF := by
  decide +kernel
/-- A row that holds each lane's number. -/
def ramp (r : Nat) (g : Group) : Group := g.setRow r (BitVec.allOnes 64) (tab fun l => BitVec.ofNat 32 l)
/-- R165: shuffles of the lane numbers. -/
theorem test_shuffle : let r (i : Instr) (l : Nat) := lane (((after i (with0 fun g => ramp 1 (rows [(2, 3)] g))).grp 0).row 3).w l
    r (.shflIdx ⟨.row 2, .row 1, false, 3, none⟩) 63 = 3 ∧ r (.shflUp ⟨.row 2, .row 1, false, 3, none⟩) 2 = 2 ∧ r (.shflUp ⟨.row 2, .row 1, false, 3, none⟩) 3 = 0 ∧
    r (.shflDn ⟨.row 2, .row 1, false, 3, none⟩) 60 = 63 ∧ r (.shflDn ⟨.row 2, .row 1, false, 3, none⟩) 61 = 61 ∧ r (.shflXor ⟨.row 2, .row 1, false, 3, none⟩) 4 = 7 := by
  decide +kernel
/-- R166: votes and ballots. -/
theorem test_votes : pred5 (.voteAny ⟨0, 3, none⟩) (fun g => g.setPred 0 (BitVec.allOnes 64) 1) 3 = true ∧
    pred5 (.voteAll ⟨0, 3, none⟩) (fun g => g.setPred 0 (BitVec.allOnes 64) 1) 3 = false ∧ pred5 (.voteEq ⟨0, 3, none⟩) (pset [0]) 3 = true ∧
    ((after (.ballot ⟨0, 3, none⟩) (with0 fun g => g.setPred 0 (BitVec.allOnes 64) 0xF0)).grp 0).s 3 = 0xF0 ∧
    ((after (.ballotCnt ⟨0, 3, none⟩) (with0 fun g => g.setPred 0 (BitVec.allOnes 64) 0xF0)).grp 0).s 3 = 4 := by decide +kernel
/-- R167: the sum of 0 to 63, and its prefixes. -/
theorem test_reduce : let r (i : Instr) (l : Nat) := lane (((after i (with0 (ramp 1))).grp 0).row 3).w l
    r (.redx ⟨.addInt, .row 1, false, 3, none⟩) 7 = 2016 ∧ r (.redx ⟨.maxS, .row 1, false, 3, none⟩) 7 = 63 ∧ r (.scan ⟨false, .addInt, .row 1, false, 3, none⟩) 3 = 6 ∧
    r (.scan ⟨true, .addInt, .row 1, false, 3, none⟩) 3 = 3 ∧ r (.scan ⟨true, .minS, .row 1, false, 3, none⟩) 0 = 0x7FFFFFFF := by decide +kernel
/-- R168: between lanes and scalars. -/
theorem test_moves : let t (i : Instr) := after i (with0 fun g => scs [(1, 0x1FFFFFFFF)] (ramp 1 g))
    lane (((t (.vmovs ⟨1, 3, none⟩)).grp 0).row 3).w 9 = 0xFFFFFFFF ∧ ((t (.smovv ⟨9, 4, .row 1, none⟩)).grp 0).s 4 = 9 ∧
    lane (((t (.vins ⟨9, 1, 3, none⟩)).grp 0).row 3).w 9 = 0xFFFFFFFF ∧ lane (((t (.vins ⟨9, 1, 3, none⟩)).grp 0).row 3).w 8 = 0 := by decide +kernel
/-- R169: scalar arithmetic with its corners. -/
theorem test_scalar : sop .sadd 0xFFFFFFFFFFFFFFFF 1 = 0 ∧ sop .ssub 0 1 = 0xFFFFFFFFFFFFFFFF ∧ sop .smul (2 ^ 63) 2 = 0 ∧ sop .smulh (-1) 2 = 0xFFFFFFFFFFFFFFFF ∧
    sop .sdiv 7 0 = 0 ∧ sop .sdiv (-7) 2 = 0xFFFFFFFFFFFFFFFD ∧ sop .sdivz (2 ^ 63) 2 = 2 ^ 62 ∧ sop .srem 7 0 = 7 ∧ sop .srem (-7) 2 = 0xFFFFFFFFFFFFFFFF ∧
    sop .sdiv (2 ^ 63) (-1) = 2 ^ 63 := by decide +kernel
theorem test_scalar2 : sop .sand 12 10 = 8 ∧ sop .sor 12 10 = 14 ∧ sop .sxor 12 10 = 6 ∧ sop .sshl 1 64 = 0 ∧ sop .sshr (2 ^ 63) 63 = 1 ∧ sop .ssar (2 ^ 63) 64 = -1 ∧
    sop .smin (-1) 1 = -1 ∧ sop .smax (-1) 1 = 1 ∧ sop .sminz (-1) 1 = 1 ∧ sop .smaxz (-1) 1 = -1 ∧ sop .sslt (-1) 1 = 1 ∧ sop .ssltz (-1) 1 = 0 ∧ sop .sseq 5 5 = 1 ∧
    sop (fun f => .smov f.sa f.sd) 9 0 = 9 := by decide +kernel
/-- R170, R171: `saddi`, and the worked constant 0xFFFF_FE20 with the low word kept. -/
theorem test_scalar_constants : let r (i : Instr) := ((after i (with0 (scs [(3, 0x123456789ABCDEF0)]))).grp 0).s 3
    r (.saddi 0x7FF 3 3) = 0x123456789ABCDEEF ∧ r (.sli ⟨0x8000, 3⟩) = 0xFFFFFFFFFFFF8000 ∧ r (.slh ⟨0x1234, 3⟩) = 0x1234DEF0 ∧
    r (.slx ⟨0xFE20, 3⟩) = 0xFFFFFE209ABCDEF0 := by decide +kernel
/-- R159, R160: conversions: truncation, saturation, NaN to 0. -/
theorem test_cvt : lane5 (.cvt ⟨.rz, 8, .row 1, false, 3, none⟩) 0xC0200000 0 0 0 3 = 0xFFFFFFFE ∧ lane5 (.cvt ⟨.rn, 8, .row 1, false, 3, none⟩) 0x4F000000 0 0 0 3 = 0x7FFFFFFF ∧
    lane5 (.cvt ⟨.rn, 8, .row 1, false, 3, none⟩) 0x7FC00000 0 0 0 3 = 0 ∧ lane5 (.cvt ⟨.rn, 35, .row 1, false, 3, none⟩) 0x80 0 0 0 3 = 0xFFFFFF80 := by decide +kernel
/-- R88: the exact special values of the approximate operations, `fsqrt` and `frnd`. -/
theorem test_float_unary : un .fabs 0xBF800000 = 0x3F800000 ∧ un .fneg 0 = 0x80000000 ∧ un .frcp 0x80000000 = 0xFF800000 ∧ un .frsq 0x80000000 = 0xFF800000 ∧
    un .fsqrt 0x40800000 = 0x40000000 ∧ un .frndN 0x40200000 = 0x40000000 ∧ un .frndP 0x40200000 = 0x40400000 ∧ un .frndM 0xC0200000 = 0xC0400000 ∧
    un .frndZ 0xC0200000 = 0xC0000000 ∧ un .fexp2 0xFF800000 = 0 ∧ un .flog2 0 = 0xFF800000 := by decide +kernel
/-! ### Control -/

/-- The program counter of lane 5 after an instruction. -/
def pc5 (i : Instr) (f : Group → Group) : W64 := ((after i (with0 f)).grp 0).lanes.pc[5]
/-- R174 to R177: the worked branch back by 12 parcels, from 0x0240 to 0x0228, and the loops. -/
theorem test_branches : pc5 (.bra 0x1FFFF4 none) (fun g => g.setPc (BitVec.allOnes 64) fun _ => 0x240) = 0x228 ∧
    pc5 (.bra 4 (some 0)) (fun g => g.setPred 0 (BitVec.allOnes 64) 0x20) = 8 ∧ pc5 (.bra 4 (some 0)) (fun g => g.setPred 0 (BitVec.allOnes 64) 0x40) = 4 ∧
    pc5 (.brs 4 .ltz 1) (scs [(1, -1)]) = 8 ∧ pc5 (.brs 4 .gtz 1) id = 4 ∧ pc5 (.loop (-6) 1) (scs [(1, 2)]) = 0xFFFFFFFFFFFFFFF4 ∧ pc5 (.loop (-6) 1) (scs [(1, 1)]) = 4 ∧
    ((after (.loop 4 1) (with0 id)).grp 0).s 1 = 0xFFFFFFFFFFFFFFFF ∧ pc5 (.jmp 1) (scs [(1, 0x1000)]) = 0x1000 := by decide +kernel
/-- The group with a caller's frame below: the top frame has 20 v rows of which k = 2 are arguments, and returns to 0x100; v0 = 5, v1 = 6. -/
def callee (h : Bool) (g : Group) : Group :=
  rows [(0, 5), (1, 6)] { g with frames := { nv := 20, lanes := BitVec.allOnes 64, ret := 0x100, k := 2, handler := h } :: (rows [(0, 1), (58, 3), (59, 4)] g).frames }
/-- R181, R182: `ret 1` gives the caller its first row and clears the second argument row. -/
theorem test_ret : let t := (after (.ret 1) (with0 (callee false))).grp 0
    t.frames.length = 1 ∧ lane (t.row 58).w 5 = 5 ∧ lane (t.row 59).w 5 = 0 ∧ lane (t.row 0).w 5 = 1 ∧ t.lanes.pc[5] = 0x100 := by decide +kernel
/-- R181: `calli s1, 12, 0, 3` pushes a frame whose first rows are the caller's last three, and goes to the address in s1; `call` of the pool entry. -/
theorem test_calls : let t := (after (.calli ⟨1, 3, 0, 12⟩) (with0 fun g => scs [(1, 0x2000)] (rows [(57, 7), (59, 9)] g))).grp 0
    t.frames.length = 2 ∧ t.top.nv = 12 ∧ lane (t.row 0).w 5 = 7 ∧ lane (t.row 2).w 5 = 9 ∧ lane (t.row 3).w 5 = 0 ∧ t.lanes.pc[5] = 0x2000 ∧ t.top.ret = 4 ∧
    ((after (.call ⟨0, 2, 0, 6⟩) s0).grp 0).lanes.pc[5] = 0x3000 ∧
    ((after (.call ⟨1, 2, 0, 6⟩) s0).grp 0).park.map (fun p => p.flt.kind) = some 0x0501 := by decide +kernel
/-- R183: `unwind` to depth 0 clears the argument rows and records the old depth. -/
theorem test_unwind : let t := (after (.unwind 1) (with0 (callee false))).grp 0
    t.frames.length = 1 ∧ lane (t.row 58).w 5 = 0 ∧ lane (t.row 59).w 5 = 0 ∧ t.regs.unw = 1 ∧ t.lanes.pc[5] = 0x100 := by decide +kernel
/-- R37, R190: `exit` of every lane retires the group; that of the lanes at the lowest address finishes those. -/
theorem test_exit : ((after .exit s0).grp 0).live = false ∧
    ((after .exit (with0 fun g => g.setPc (~~~ 0xF) fun _ => 0x80)).grp 0).lanes.fin = 0xF := by decide +kernel
/-- R191: `trap 17` parks the group, with its lanes past the instruction. -/
theorem test_trap : let t := (after (.trap 17) s0).grp 0
    t.park.map Park.why = some (.trap 17) ∧ t.lanes.pc[5] = 4 := by decide +kernel
/-- R195, R400: `brk 3` with no trap vector parks. -/
theorem test_brk : ((after (.brk 3) s0).grp 0).park.map Park.why = some (.brk 3) := by decide +kernel
/-- An entry of the trap stack. -/
def entry : TrapEnt := { pcs := Vector.replicate 64 0x40, mask := BitVec.allOnes 64, mode := false, code := 9, val := 8, depth := 1, flt := none, wrote := false }
/-- R197: `rti` restores mode, %trapcode and %trapval, and its lanes resume at their return points; in unprivileged mode it faults. -/
theorem test_rti : let t := (after .rti (with0 fun g => let h := callee true g
      { h with frames := h.frames.map fun f => { f with k := 0 }, regs := { h.regs with mode := true, traps := [entry], trapcode := 1 } })).grp 0
    t.regs.mode = false ∧ t.regs.trapcode = 9 ∧ t.regs.trapval = 8 ∧ t.regs.traps = [] ∧ t.frames.length = 1 ∧ t.lanes.pc[5] = 0x40 ∧
    ((after .rti s0).grp 0).park.map (fun p => p.flt.kind) = some 0x0201 := by decide +kernel
/-- R44: `reform` puts every lane of the group into a bin, and the group is dissolved. -/
theorem test_reform : let t := after .reform s0
    ((t.team 1).bins.map fun b => (b.pc, b.lanes.length)) = [(4, 64)] := by decide +kernel
/-- R133: an illegal word faults with its kind, and the word in aux. -/
theorem test_illegal : ((after (.illegalInstruction 0x0104 0x3E0C2F83) s0).grp 0).park.map (fun p => (p.flt.kind, p.flt.aux)) = some (0x0104, 0x3E0C2F83) := by decide +kernel
/-! ### Memory -/

/-- The state after two steps of different agents. -/
def after2 (i j : Instr) (s : State) : State := after j (after i s)
/-- Per-lane addresses 0x1000 + L in v1, all in one line, and lane numbers in v2. -/
def bytewise (g : Group) : Group := (g.setRow 1 (BitVec.allOnes 64) (tab fun l => BitVec.ofNat 32 (0x1000 + l))).setRow 2 (BitVec.allOnes 64) (tab fun l => BitVec.ofNat 32 (l + 1))
/-- Per-lane addresses 0x1000 + 4 · L in v1, and lane numbers in v2. -/
def addrs (g : Group) : Group := (g.setRow 1 (BitVec.allOnes 64) (tab fun l => BitVec.ofNat 32 (0x1000 + 4 * l))).setRow 2 (BitVec.allOnes 64) (tab fun l => BitVec.ofNat 32 (l + 1))
/-- R66, R207: a store enters the FIFO; an own load takes its bytes from there (R66), and another core's view changes when it has drained and is released. -/
theorem test_store_load : let s := after (.st8 ⟨.row 1, 0, .row 2, none⟩) (with0 bytewise)
    (s.grp 0).mio.fifo.length = 1 ∧ lane (((after2 (.ldZ8 ⟨.row 1, 0, 3, none⟩) (.loadLand 0 0) s).grp 0).row 3).w 5 = 6 ∧
    s.mem.dev.read 0x1005 = 0 := by decide +kernel
/-- R67, R68: a drained store is a dirty line of the L1; a release at `.sys` brings it home. -/
theorem test_store_home : let s := after (.storeDrain 0) (after (.st8 ⟨.row 1, 0, .row 2, none⟩) (with0 bytewise))
    (s.grp 0).mio.fifo = [] ∧ s.mem.dev.read 0x1005 = 0 ∧ ((s.core 0).dirty.length) = 1 ∧
    (after2 (.fenceRel .sys) (.releaseComplete 0) s).mem.dev.read 0x1005 = 6 := by decide +kernel
/-- R205, R411: a misaligned address faults with the address, its width and its access code. -/
theorem test_misaligned : ((after (.ld32 ⟨.row 1, 0, 3, none⟩) (with0 (rows [(1, 0x1002)]))).grp 0).park.map (fun p => (p.flt.kind, p.flt.addr, p.flt.aux)) =
    some (0x0604, 0x1002, 4) ∧ ((after (.st64 ⟨.row 1, 0, .row 2, none⟩) (with0 (rows [(1, 0x1004)]))).grp 0).park.map (fun p => (p.flt.kind, p.flt.addr, p.flt.aux)) =
    some (0x0604, 0x1004, 0x108) := by decide +kernel
/-- R60, R205: an address that is not canonical, and one that no page maps. -/
theorem test_unmapped : ((after (.ld32 ⟨.row 1, 1, 3, none⟩) (with0 (scs [(1, 0x800000000000)]))).grp 0).park.map (fun p => p.flt.kind) = some 0x0601 ∧
    ((after (.ld32 ⟨.row 1, 1, 3, none⟩) (with0 (scs [(1, 0x40000000)]))).grp 0).park.map (fun p => (p.flt.kind, p.flt.aux)) = some (0x0701, 4 + 2 * 1024) := by
  decide +kernel
/-- R214, R216: the own scratchpad by offset; beyond its 64 KiB the access faults. -/
theorem test_scratch : let s := after (.storeDrain 0) (after (.sts32 ⟨.row 1, .row 2, none⟩) (with0 addrs))
    (s.team 1).scr.read 0x1014 = 6 ∧ lane (((after2 (.lds32 ⟨false, .row 1, 3, none⟩) (.loadLand 0 0) s).grp 0).row 3).w 63 = 64 ∧
    ((after (.lds32 ⟨false, .row 1, 3, none⟩) (with0 (rows [(1, 65536)]))).grp 0).park.map (fun p => p.flt.kind) = some 0x0603 := by decide +kernel
/-- R221, R222: an atomic is performed lane after lane at the home of its location: the sum of 1 to 64, each lane with the sum before it. -/
theorem test_atomic : let s := after2 (.atomAdd32 ⟨.row 4, 2, .pkg⟩) (.atomicPerform 0) (with0 fun g => rows [(4, 0x1000), (5, 0)] (addrs g))
    s.mem.dev.readN 0x1000 2 = [0x20, 0x08] ∧ lane ((s.grp 0).row 2).w 3 = 6 ∧ (s.grp 0).mio.fifo = [] := by decide +kernel
/-- R221: compare-and-swap stores the second operand where the first is found. -/
theorem test_cas : let s := after2 (.atomCas32 ⟨.row 4, 6, .pkg⟩) (.atomicPerform 0) (with0 fun g => rows [(4, 0x1000), (5, 0), (6, 0), (7, 9)] g)
    s.mem.dev.read 0x1000 = 9 ∧ lane ((s.grp 0).row 6).w 0 = 0 ∧ lane ((s.grp 0).row 6).w 1 = 9 := by decide +kernel
/-- R452: `poison` marks the line, and a load of it poisons its destination (R434). -/
theorem test_poison : let s := after (.storeDrain 0) (after (.poison (.row 4) none) (with0 (rows [(4, 0x1000), (5, 0)])))
    (((after2 (.ld32 ⟨.row 4, 0, 3, none⟩) (.loadLand 0 0) s).grp 0).row 3).px = BitVec.allOnes 64 := by decide +kernel

/-! ### Synchronisation and special registers -/

/-- R225, R226: a team of one group arrives at `bar.team`, and when the release completes it goes on. -/
theorem test_barrier : let s := after (.bar .team) s0
    (s.grp 0).lanes.waits = [(.bar .team, BitVec.allOnes 64)] ∧ ((after (.releaseComplete 0) s).grp 0).lanes.waits = [] := by decide +kernel
/-- R228: a semaphore is set when the release completes; `sem.wait` then goes on. -/
theorem test_semaphore : let s := after2 (.semSet ⟨1, 0, .team⟩) (.releaseComplete 0) (with0 (scs [(1, 7)]))
    s.sem (s.team 1) 0 = 7 ∧ ((after (.semWait 1 0) s).grp 0).lanes.waits = [] ∧ ((after (.semWait 1 1) s).grp 0).lanes.waits.length = 1 := by decide +kernel
/-- R199: special registers; %trapcode reads 0 with an empty trap stack; the privileged ones fault. -/
theorem test_gsr : ((after (.gsr .fdepth 3) s0).grp 0).s 3 = 0 ∧ ((after (.gsr .gen 3) s0).grp 0).s 3 = 1 ∧ ((after (.gsr .grid 3) s0).grp 0).s 3 = 1 ∧
    lane (((after (.gsrv false .tid 3) s0).grp 0).row 3).w 5 = 5 ∧ ((after (.gsr .vf 3) s0).grp 0).park.map (fun p => p.flt.kind) = some 0x0202 ∧
    ((after (.ssr .srseed 3) s0).grp 0).park.map (fun p => p.flt.kind) = some 0x0203 ∧ ((after (.ssr .xqsel 1) (with0 (scs [(1, 7)]))).grp 0).regs.xqsel = 3 := by
  decide +kernel
/-- R23, R202: `lclk` counts an event; `spool` gives the base of a pool entry. -/
theorem test_counts : ((after (.lclk 3) s0).grp 0).s 3 = 1 ∧ ((after (.lclk 3) s0).die 0).count = 1 ∧ ((after (.spool 0 3) s0).grp 0).s 3 = 0x3000 := by decide +kernel
/-- R262: `mmov` between v rows and m rows, and `mzero`. -/
theorem test_matrix_moves : let s := after (.mmovMv 1 2 (.row 1)) (with0 (rows [(1, 9)]))
    lane ((s.grp 0).mrow 18).w 5 = 9 ∧ lane (((after (.mmovVm 1 2 3) s).grp 0).row 3).w 5 = 9 ∧ lane (((after (.mzero 1) s).grp 0).mrow 18).w 5 = 0 := by decide +kernel
/-! ### For each statement, a state and operands that meet its hypotheses -/

theorem meetsAll {l : List (Instr × Op)}
    (h : (l.all fun x => x.1.wf && (s0.hazard 0 (active c0 none) x.2 == false && x.2.stall == false && c0.g.faultBefore (active c0 none) x.2 == none)) = true) :
    ∀ x ∈ l, Meets x.1 x.2 := fun x hx => meets (List.all_eq_true.mp h x hx)

/-- Both widths at the highest destination; the third source of `mad`. -/
theorem witness_IntegerLaneResults : ∀ x ∈ ([(.add ⟨.w32, .row 59, .row 0, false, 59, none⟩, opV3 1 (.row 0) (.row 59) false false 59),
    (.mad ⟨.b8, .row 2, .row 1, true, 3, none⟩, opV3 1 (.row 1) (.row 2) true true 3),
    (.subs ⟨.p64, .row 58, .row 0, false, 58, none⟩, opV3 2 (.row 0) (.row 58) false false 58)] : List (Instr × Op)), Meets x.1 x.2 := meetsAll (by decide +kernel)
theorem witness_ImmediateLaneResults : ∀ x ∈ ([(.addi ⟨0x80, .row 59, false, 0, none⟩, opU 1 (.row 59) false 0), (.andi ⟨1, .row 1, false, 2, none⟩, opU 1 (.row 1) false 2),
    (.ori ⟨1, .row 1, false, 2, none⟩, opU 1 (.row 1) false 2), (.xori ⟨1, .row 1, false, 2, none⟩, opU 1 (.row 1) false 2),
    (.shli ⟨31, .row 1, false, 2, none⟩, opU 1 (.row 1) false 2), (.shri ⟨0, .row 1, false, 2, none⟩, opU 1 (.row 1) false 2),
    (.sari ⟨31, .row 1, false, 2, none⟩, opU 1 (.row 1) false 2), (.movi ⟨0xFF, true, 59, none⟩, { dsts := [(59, 1)], nw := true })] : List (Instr × Op)), Meets x.1 x.2 :=
  meetsAll (by decide +kernel)
theorem witness_IntegerUnaryResults : ∀ x ∈ ([(.mov ⟨false, .row 1, false, 2, none⟩, opU 1 (.row 1) false 2), (.mov ⟨true, .row 58, false, 0, none⟩, opU 2 (.row 58) false 0),
    (.abs ⟨false, .row 1, false, 2, none⟩, opU 1 (.row 1) false 2), (.abs ⟨true, .row 0, false, 58, none⟩, opU 2 (.row 0) false 58),
    (.neg ⟨false, .row 1, false, 2, none⟩, opU 1 (.row 1) false 2), (.neg ⟨true, .row 0, false, 58, none⟩, opU 2 (.row 0) false 58),
    (.not ⟨false, .row 1, false, 2, none⟩, opU 1 (.row 1) false 2), (.not ⟨true, .row 0, false, 58, none⟩, opU 2 (.row 0) false 58),
    (.clz ⟨.row 59, false, 59, none⟩, opU 1 (.row 59) false 59), (.popc ⟨.row 59, false, 59, none⟩, opU 1 (.row 59) false 59),
    (.brev ⟨.row 59, false, 59, none⟩, opU 1 (.row 59) false 59)] : List (Instr × Op)), Meets x.1 x.2 := meetsAll (by decide +kernel)
theorem witness_CompactLaneResults : ∀ x ∈ ([(.movCompact ⟨.row 27, 59⟩, { len := 2, srcs := [(.row 27, 1)], dsts := [(59, 1)] }), (.addCompact ⟨.row 27, 59⟩, opC ⟨.row 27, 59⟩),
    (.subCompact ⟨.row 1, 2⟩, opC ⟨.row 1, 2⟩), (.andCompact ⟨.row 1, 2⟩, opC ⟨.row 1, 2⟩), (.orCompact ⟨.row 1, 2⟩, opC ⟨.row 1, 2⟩),
    (.xorCompact ⟨.row 1, 2⟩, opC ⟨.row 1, 2⟩), (.shlCompact ⟨.row 1, 2⟩, opC ⟨.row 1, 2⟩), (.shrCompact ⟨.row 1, 2⟩, opC ⟨.row 1, 2⟩),
    (.minCompact ⟨.row 1, 2⟩, opC ⟨.row 1, 2⟩), (.maxCompact ⟨.row 1, 2⟩, opC ⟨.row 1, 2⟩), (.mulCompact ⟨.row 1, 2⟩, opC ⟨.row 1, 2⟩),
    (.faddCompact ⟨.row 1, 2⟩, opC ⟨.row 1, 2⟩), (.fsubCompact ⟨.row 1, 2⟩, opC ⟨.row 1, 2⟩), (.fmulCompact ⟨.row 1, 2⟩, opC ⟨.row 1, 2⟩),
    (.addq ⟨-16, 59⟩, { len := 2, srcs := [(.row 59, 1)], dsts := [(59, 1)] }), (.movq ⟨15, 0⟩, { len := 2, dsts := [(0, 1)] })] : List (Instr × Op)), Meets x.1 x.2 :=
  meetsAll (by decide +kernel)
theorem witness_FloatLaneResults : ∀ x ∈ ([(.fma ⟨.f32, .row 2, .row 1, false, 3, none⟩, opV3 1 (.row 1) (.row 2) true false 3),
    (.fmin ⟨.f64, .row 58, .row 0, false, 58, none⟩, opV3 2 (.row 0) (.row 58) false false 58),
    (.fdot2 ⟨true, .row 2, .row 1, false, 3, none⟩, opV3 1 (.row 1) (.row 2) true false 3)] : List (Instr × Op)), Meets x.1 x.2 := meetsAll (by decide +kernel)
theorem witness_FloatUnaryResults : ∀ x ∈ ([(.fabs ⟨.row 1, false, 2, none⟩, opU 1 (.row 1) false 2), (.fneg ⟨.row 1, false, 2, none⟩, opU 1 (.row 1) false 2),
    (.frcp ⟨.row 1, false, 2, none⟩, opU 1 (.row 1) false 2), (.frsq ⟨.row 1, false, 2, none⟩, opU 1 (.row 1) false 2), (.fsqrt ⟨.row 1, false, 2, none⟩, opU 1 (.row 1) false 2),
    (.fexp2 ⟨.row 1, false, 2, none⟩, opU 1 (.row 1) false 2), (.flog2 ⟨.row 1, false, 2, none⟩, opU 1 (.row 1) false 2), (.frndN ⟨.row 1, false, 2, none⟩, opU 1 (.row 1) false 2),
    (.frndZ ⟨.row 1, false, 2, none⟩, opU 1 (.row 1) false 2), (.frndM ⟨.row 1, false, 2, none⟩, opU 1 (.row 1) false 2),
    (.frndP ⟨.row 1, false, 2, none⟩, opU 1 (.row 1) false 2), (.fclass ⟨.row 1, false, 2, none⟩, opU 1 (.row 1) false 2)] : List (Instr × Op)), Meets x.1 x.2 :=
  meetsAll (by decide +kernel)
/-- A NaN in each place; infinities with zeros; a number at each end of the finite range. -/
theorem witness_FloatSpecialValues : (fmt32.val 0x7FC00000).isNan = true ∧ (fmt32.val 0xFF800001).isNan = true ∧ (0 : W32).toNat % 2 ^ 31 < 0x7F800000 ∧
    (0xFF7FFFFF : W32).toNat % 2 ^ 31 < 0x7F800000 ∧ 0 < (1 : W32).toNat % 2 ^ 31 ∧
    fopWord .fma .f32 0 0 0x7F800001 = 0x7FC00000 ∧ fopWord .mul .f32 0xFF800000 0x80000000 0 = 0x7FC00000 ∧ fopWord .sub .f32 0xFF7FFFFF 0xFF7FFFFF 0 = 0 ∧
    fopWord .add .f32 0x80000000 0 0 = 0 ∧ fopWord .add .f32 0x80000001 0 0 = 0x80000001 ∧ fopWord .mul .f32 0x807FFFFF 0x3F800000 0 = 0x807FFFFF := by decide +kernel
/-- 1 and the least number, whose sum, difference and product are not zero; a value of f64; 1 among the numbers of E4M3, to nearest and toward zero. -/
theorem witness_FloatSpecialValues_numbers : (f32Fin 0x3F800000 ∧ f32Fin 1 ∧ f32Q 0x3F800000 + f32Q 1 ≠ 0 ∧ f32Q 0x3F800000 - f32Q 1 ≠ 0 ∧
      f32Q 0x3F800000 * f32Q 1 ≠ 0 ∧ f32Q 0x3F800000 * f32Q 1 + f32Q 1 ≠ 0) ∧ (f64Fin (join 1 0x3FF00000) ∧ f64Q (join 1 0x3FF00000) ≠ 0) ∧
    (∀ rnd, rnd ≤ 1 → let f : FmtWord := ⟨0x20767 + rnd * 1048576⟩
      f.valid = true ∧ f.rnd = rnd ∧ f32Fin 0x3F800000 ∧ f32Q 0x3F800000 = 1 ∧ 0x38 < 2 ^ f.w ∧ finQ (narrowValue f 0x38) = some 1) := by
  refine ⟨by unfold f32Fin f32Q; decide +kernel, by unfold f64Fin f64Q; decide +kernel, fun rnd h => ?_⟩
  interval_cases rnd <;> (intro f; unfold f32Fin f32Q; decide +kernel)
/-- The worked case of R100: elements of E4M3 with scales. -/
theorem witness_FloatSpecialValues_mx : let f : FmtWord := ⟨0x60767⟩; let a : Nat → W32 := fun r => if r < 8 then 0x78787878 else 0
    let b : Nat → W32 := fun r => if r < 8 then 0x70707070 else 0
    f.valid = true ∧ (∀ k, k < mxK f → (finQ (mxElem f a k)).isSome ∧ (finQ (mxElem f b k)).isSome) ∧
    (∀ c, c < mxBlocks f → (finQ (mxScale f (fun _ => 20 + 127 * 256) c)).isSome ∧ (finQ (mxScale f (fun _ => 80 + 127 * 256) c)).isSome) ∧ f32Fin 0 := by
  intro f a b; unfold f32Fin; decide +kernel
theorem witness_ConversionResults : ∀ x ∈ ([(.cvt ⟨.rz, 8, .row 59, false, 59, none⟩, { srcs := [(.row 59, 1)], dsts := [(59, 1)] }),
    (.cvt ⟨.rn, 34, .row 58, false, 59, none⟩, { srcs := [(.row 58, 2)], dsts := [(59, 1)] }),
    (.cvt ⟨.rn, 32, .row 59, false, 58, none⟩, { srcs := [(.row 59, 1)], dsts := [(58, 2)] })] : List (Instr × Op)), Meets x.1 x.2 := meetsAll (by decide +kernel)
theorem witness_ComparisonResults : ∀ x ∈ ([(.setp ⟨.i32, .row 2, .row 1, 5, 11, none⟩, { srcs := setpSrcs ⟨.i32, .row 2, .row 1, 5, 11, none⟩ }),
    (.setp ⟨.i32, .row 0, .row 1, 7, 11, none⟩, { srcs := setpSrcs ⟨.i32, .row 0, .row 1, 7, 11, none⟩ }),
    (.setp ⟨.i64, .row 58, .row 0, 0, 0, none⟩, { srcs := setpSrcs ⟨.i64, .row 58, .row 0, 0, 0, none⟩ }),
    (.setp ⟨.f32, .row 2, .row 1, 7, 0, none⟩, { srcs := setpSrcs ⟨.f32, .row 2, .row 1, 7, 0, none⟩ }),
    (.setp ⟨.f64, .row 58, .row 0, 6, 0, none⟩, { srcs := setpSrcs ⟨.f64, .row 58, .row 0, 6, 0, none⟩ }),
    (.setpi ⟨0x20, .row 1, 0, 0, none⟩, { srcs := [(.row 1, 1)] })] : List (Instr × Op)), Meets x.1 x.2 := meetsAll (by decide +kernel)
theorem witness_PredicateLogicResults : ∀ x ∈ ([(.pand ⟨0, 1, 11, none⟩, {}), (.por ⟨0, 1, 2, none⟩, {}), (.pxor ⟨0, 1, 2, none⟩, {}), (.pandn ⟨0, 1, 2, none⟩, {}),
    (.pnot ⟨0, 1, none⟩, {}), (.pmov ⟨0, 1, none⟩, {}), (.pset ⟨0, none⟩, {}), (.pclr ⟨11, none⟩, {})] : List (Instr × Op)), Meets x.1 x.2 := meetsAll (by decide +kernel)
theorem witness_SelectResults : ∀ x ∈ ([(.sel ⟨false, .row 2, .row 1, false, 3, 0⟩, opV3 1 (.row 1) (.row 2) false false 3),
    (.sel ⟨true, .row 2, .row 0, false, 58, 11⟩, opV3 2 (.row 0) (.row 2) false false 58)] : List (Instr × Op)), Meets x.1 x.2 := meetsAll (by decide +kernel)
theorem witness_BitFieldResults : ∀ x ∈ ([(.bfxZ ⟨.row 2, .row 1, false, 3, none⟩, opV3 1 (.row 1) (.row 2) false false 3),
    (.bfxS ⟨.row 2, .row 1, false, 3, none⟩, opV3 1 (.row 1) (.row 2) false false 3), (.bfi ⟨.row 2, .row 1, false, 3, none⟩, opV3 1 (.row 1) (.row 2) true false 3)] :
    List (Instr × Op)), Meets x.1 x.2 := meetsAll (by decide +kernel)
theorem witness_ShuffleResults : ∀ x ∈ ([(.shflIdx ⟨.row 2, .row 1, false, 3, none⟩, opV3 1 (.row 1) (.row 2) false false 3),
    (.shflUp ⟨.row 2, .row 1, false, 3, none⟩, opV3 1 (.row 1) (.row 2) false false 3), (.shflDn ⟨.row 2, .row 1, false, 3, none⟩, opV3 1 (.row 1) (.row 2) false false 3),
    (.shflXor ⟨.row 2, .row 1, false, 3, none⟩, opV3 1 (.row 1) (.row 2) false false 3)] : List (Instr × Op)), Meets x.1 x.2 := meetsAll (by decide +kernel)
theorem witness_VoteAndBallotResults : ∀ x ∈ ([(.voteAny ⟨0, 1, none⟩, {}), (.voteAll ⟨0, 1, none⟩, {}), (.voteEq ⟨0, 1, none⟩, {}),
    (.ballot ⟨0, 31, none⟩, { sdsts := [31], always := true }), (.ballotCnt ⟨0, 0, none⟩, { sdsts := [0], always := true })] : List (Instr × Op)), Meets x.1 x.2 :=
  meetsAll (by decide +kernel)
theorem witness_ReductionAndScanResults : ∀ x ∈ ([(.redx ⟨.addInt, .row 1, false, 2, none⟩, opU 1 (.row 1) false 2), (.redx ⟨.and, .row 1, false, 2, none⟩, opU 1 (.row 1) false 2),
    (.redx ⟨.or, .row 1, false, 2, none⟩, opU 1 (.row 1) false 2), (.redx ⟨.minF32, .row 59, true, 0, none⟩, opU 1 (.row 59) true 0),
    (.scan ⟨false, .addF32, .row 1, false, 2, none⟩, opU 1 (.row 1) false 2), (.scan ⟨true, .addInt, .row 1, false, 2, none⟩, opU 1 (.row 1) false 2)] : List (Instr × Op)), Meets x.1 x.2 :=
  meetsAll (by decide +kernel)
theorem witness_LaneScalarMoves : ∀ x ∈ ([(.vmovs ⟨31, 59, none⟩, { dsts := [(59, 1)], ssrcs := [31] }),
    (.smovv ⟨63, 0, .row 59, none⟩, { srcs := [(.row 59, 1)], sdsts := [0], pxMask := some (BitVec.ofNat 64 (2 ^ 63)) }),
    (.vins ⟨0, 0, 0, none⟩, { dsts := [(0, 1)], ssrcs := [0] })] : List (Instr × Op)), Meets x.1 x.2 := meetsAll (by decide +kernel)
theorem witness_ScalarOperationResults : ∀ x ∈ ([(.sadd ⟨2, 1, 31⟩, { ssrcs := [1, 2], sdsts := [31] }), (.smov 31 0, { ssrcs := [31], sdsts := [0] })] : List (Instr × Op)),
    Meets x.1 x.2 := meetsAll (by decide +kernel)
theorem witness_SaddiAddsSignedImmediate : Meets (.saddi 0x400 31 0) { ssrcs := [31], sdsts := [0] } := meets (by decide +kernel)
theorem witness_ScalarConstantResults : ∀ x ∈ ([(.sli ⟨0x8000, 31⟩, { sdsts := [31] }), (.slh ⟨0, 0⟩, { ssrcs := [0], sdsts := [0] }),
    (.slx ⟨0xFE20, 16⟩, { ssrcs := [16], sdsts := [16] })] : List (Instr × Op)), Meets x.1 x.2 := meetsAll (by decide +kernel)
theorem witness_BranchResults : (∀ x ∈ ([(.bra 0x1FFFFF none, {}), (.jmp 1, { ssrcs := [1] }), (.nop, {})] : List (Instr × Op)), Meets x.1 x.2) ∧
    (c0.g.s 1).getLsbD 0 = false := ⟨meetsAll (by decide +kernel), by decide +kernel⟩
theorem witness_BrsComparesScalarWithZero : Meets (.brs 0x1FFF .gez 31) { ssrcs := [31] } := meets (by decide +kernel)
theorem witness_LoopDecrementsAndBranches : Meets (.loop 0xFFFF 31) { ssrcs := [31], sdsts := [31] } ∧ c0.g.s 31 ≠ 1 ∧
    (∃ c, Ready (with0 (scs [(31, 1)])) c ∧ c.g.s 31 = 1) :=
  ⟨meets (by decide +kernel), by decide +kernel, ⟨⟨0, scs [(31, 1)] fetchGroup, 0, BitVec.allOnes 64⟩, ⟨by rfl, by decide +kernel, by decide +kernel, by decide +kernel, by rfl⟩, by decide +kernel⟩⟩
theorem readyOf {s : State} {c : Ctx} (h : s.ctx = some c) (h2 : ((s.front c).isNone && !s.paceHeld c.key && c.g.study.phase == 0 && c.g.replay.isNone) = true) : Ready s c := by
  simp only [Bool.and_eq_true, Option.isNone_iff_eq_none, Bool.not_eq_true', beq_iff_eq] at h2
  exact ⟨h, h2.1.1.1, h2.1.1.2, h2.1.2, h2.2⟩
theorem goesOf {s : State} {c : Ctx} {act : Mask} {o : Op} (h : (s.hazard c.key act o == false && o.stall == false && c.g.faultBefore act o == none) = true) :
    Goes s c act o := by
  simp only [Bool.and_eq_true, beq_iff_eq] at h
  exact ⟨h.1.1, h.1.2, h.2⟩
/-- The issue of the test group. -/
def ctx1 (f : Group → Group) : Ctx := ⟨0, f fetchGroup, (f fetchGroup).issuePc, (f fetchGroup).issueMask⟩
/-- Only lanes 0 to 3 are at the lowest address. -/
def few (g : Group) : Group := g.setPc (~~~ 0xF) fun _ => 0x80
/-- A state with a trap vector at 0x22000: the handler of causes 0 to 3 is at 0x4000, with 8 v rows. -/
def sv (f : Group → Group) : State := let s := with0 f
  { s with vfs := put s.vfs 0 { s.vf 0 with vector := 0x22000 }
           mem := { s.mem with dev := s.mem.dev.writeN 0x22000 ((List.replicate 4 (leBytes 8 0x4000 ++ leBytes 8 8)).flatten) } }

theorem witness_CallsPushFrames :
    (Ready s0 c0 ∧ (Instr.call ⟨0, 2, 0, 6⟩).wf = true ∧ Goes s0 c0 (active c0 none) { wait := true } ∧ (0 : BitVec 8).toNat < (s0.gridOf c0.g).poolCount ∧
      fieldAt ((s0.gridOf c0.g).poolEntry 0) 0 1 = 1 ∧ fieldAt ((s0.gridOf c0.g).poolEntry 0) 1 1 = 6 ∧ fieldAt ((s0.gridOf c0.g).poolEntry 0) 2 1 = 0 ∧
      2 ≤ c0.g.top.nv ∧ 6 ≤ (s0.gridOf c0.g).roleNv c0.g.role ∧ 0 ≤ (s0.gridOf c0.g).roleNm c0.g.role ∧ c0.g.fdepth < 31 ∧ RowsFree s0 c0 4) ∧
    ((Instr.calli ⟨1, 0, 8, 60⟩).wf = true ∧ Goes s0 c0 (active c0 none) { wait := true, ssrcs := [1] } ∧ 60 ≤ (s0.gridOf c0.g).roleNv c0.g.role ∧
      8 ≤ (s0.gridOf c0.g).roleNm c0.g.role ∧ (c0.g.s 1).getLsbD 0 = false ∧ RowsFree s0 c0 188) := by
  refine ⟨⟨ready0, by decide, goes0 (by decide +kernel), ?_⟩, by decide, goes0 (by decide +kernel), ?_⟩ <;> (unfold RowsFree; decide +kernel)
theorem witness_RetPopsTheFrame :
    (let s := with0 fun g => few (callee false g); let c := ctx1 fun g => few (callee false g)
      Ready s c ∧ Goes s c (active c none) { wait := true } ∧ 0 < c.g.fdepth ∧ c.g.top.handler = false ∧ 2 ≤ c.g.top.k ∧ ¬ EndsFrame c (c.g.atRet ||| c.g.atRti)) ∧
    (let s := with0 (callee false); let c := ctx1 (callee false)
      Ready s c ∧ Goes s c (active c none) { wait := true, clears := some (c.g.clearedAt (c.g.fdepth - 1) 2) } ∧ (∃ f u, c.g.frames = f :: u :: c.g.frames.tail.tail ∧ f.handler = false ∧ 2 ≤ f.k ∧ f.k ≤ u.nv ∧ u.spilled = false) ∧
        EndsFrame c c.g.atRet ∧ s.flying c.key c.g.fdepth = false ∧ (s.core (coreOf c.key)).line = []) := by
  refine ⟨⟨readyOf (by rfl) (by decide +kernel), goesOf (by decide +kernel), ?_⟩, readyOf (by rfl) (by decide +kernel), goesOf (by decide +kernel), ⟨_, _, rfl, ?_⟩, ?_⟩ <;>
    (try unfold EndsFrame) <;> decide +kernel
theorem witness_UnwindPopsFrames : let s := with0 (callee false); let c := ctx1 (callee false)
    Ready s c ∧ Goes s c (active c none) { wait := true, ssrcs := [1], clears := some (c.g.clearedAt (c.g.s 1).toNat 0) } ∧ (c.g.s 1).toNat < c.g.fdepth ∧ c.g.handlerAbove (c.g.s 1).toNat = none ∧
      s.flying c.key ((c.g.s 1).toNat + 1) = false ∧ (∀ e ∈ c.g.mio.fifo, e.depth ≤ (c.g.s 1).toNat) ∧ (c.g.frameAt (c.g.s 1).toNat).spilled = false ∧
      (s.core (coreOf c.key)).line = [] ∧ (c.g.frameAt ((c.g.s 1).toNat + 1)).k ≤ (c.g.frameAt (c.g.s 1).toNat).nv :=
  ⟨readyOf (by rfl) (by decide +kernel), goesOf (by decide +kernel), by decide +kernel⟩
theorem witness_ExitAndYieldResults : let s := with0 few; let c := ctx1 few
    Ready s c ∧ Goes s c (active c none) { wait := true } ∧ c.g.running &&& ~~~ (c.mask ||| c.g.atRet ||| c.g.atRti) ≠ 0 ∧ (∀ l, (c.g.bar l).issued = 0) ∧
      (s.team c.g.team).bins = [] ∧ (s.core (coreOf c.key)).line = [] ∧ ∀ e ∈ s.groups, e.2.study.phase ≠ 2 ∧ ∀ w ∈ e.2.lanes.waits, Wait.yields w.1 = false :=
  ⟨readyOf (by rfl) (by decide +kernel), goesOf (by decide +kernel), by decide +kernel, fun l => by cases l <;> decide +kernel, by decide +kernel, by decide +kernel, by decide +kernel⟩
/-- A trap-stack entry of a `brk`. -/
def trapped (g : Group) : Group := { g with regs := { g.regs with traps := [entry] } }
/-- The callee's frame holds only the lanes at the lowest address, so that others wait below. -/
def below (g : Group) : Group := let h := few (callee false g); { h with frames := h.frames.modifyHead fun f => { f with lanes := 0xF } }
theorem witness_ReformFillsBins :
    (Ready (with0 below) (ctx1 below) ∧ Goes (with0 below) (ctx1 below) (active (ctx1 below) none) { wait := true } ∧ (ctx1 below).g.lowerWaits (ctx1 below).mask = true) ∧
    (Ready (with0 trapped) (ctx1 trapped) ∧ Goes (with0 trapped) (ctx1 trapped) (active (ctx1 trapped) none) { wait := true } ∧ (ctx1 trapped).g.regs.traps ≠ []) ∧
    (let s := with0 few; let c := ctx1 few
      Ready s c ∧ Goes s c (active c none) { wait := true } ∧ c.g.regs.traps = [] ∧ c.g.lowerWaits c.mask = false ∧ c.g.mio.loads = [] ∧ c.g.mio.fifo = [] ∧
        s.mxOf c.key = [] ∧ c.g.running &&& ~~~ (c.mask ||| c.g.atRet ||| c.g.atRti) ≠ 0 ∧ (s.core (coreOf c.key)).line = []) :=
  ⟨⟨readyOf (by rfl) (by decide +kernel), goesOf (by decide +kernel), by decide +kernel⟩, ⟨readyOf (by rfl) (by decide +kernel), goesOf (by decide +kernel), by decide +kernel⟩,
    readyOf (by rfl) (by decide +kernel), goesOf (by decide +kernel), by decide +kernel⟩
theorem witness_TrapParksTheGroup : Meets (.trap 0xFFFF) { wait := true, ssrcs := [0, 1, 2, 3], sdsts := [0, 1] } ∧ s0.mxOf c0.key = [] ∧ Meets (.suspect 0) { wait := true } ∧ Meets (.probe 0 31) { ssrcs := [31] } :=
  ⟨meets (by decide +kernel), by decide +kernel, meets (by decide +kernel), meets (by decide +kernel)⟩
/-- The vector lies in host memory (the page at 0x40000000 is the host's), and the link retrains. -/
def far : State :=
  { s0 with vfs := put s0.vfs 0 { s0.vf 0 with vector := 0x40000000 }
            mem := { s0.mem with dev := s0.mem.dev.writeN 0x21008 (leBytes 8 0x1F) }
            mod_ := { s0.mod_ with link := { state := 2 } } }
/-- A group whose trap stack is full. -/
def full (g : Group) : Group := { g with regs := { g.regs with traps := [entry, entry, entry, entry] } }
theorem witness_BrkEntersTheHandler :
    (Ready (sv id) (ctx1 id) ∧ Goes (sv id) (ctx1 id) (active (ctx1 id) none) { wait := true } ∧ (sv id).mxOf 0 = [] ∧ (sv id).vectorHeld ((sv id).gridOf (ctx1 id).g).vf 0 = false ∧
      (sv id).vector ((sv id).gridOf (ctx1 id).g).vf 0 = some (0x4000, 8, 0) ∧ (ctx1 id).g.regs.traps.length < 4 ∧ (ctx1 id).g.fdepth < 31 ∧ RowsFree (sv id) (ctx1 id) 8) ∧
    (Meets (.brk 3) { wait := true } ∧ s0.vectorHeld (s0.gridOf c0.g).vf 0 = false ∧ s0.vector (s0.gridOf c0.g).vf 0 = none) ∧
    Ready (sv full) (ctx1 full) ∧ Goes (sv full) (ctx1 full) (active (ctx1 full) none) { wait := true } ∧ (sv full).mxOf 0 = [] ∧ (sv full).vectorHeld ((sv full).gridOf (ctx1 full).g).vf 0 = false ∧
      (sv full).vector ((sv full).gridOf (ctx1 full).g).vf 0 = some (0x4000, 8, 0) ∧ 4 ≤ (ctx1 full).g.regs.traps.length ∧ (ctx1 full).g.regs.escalated = false ∧
    (Ready far (ctx1 id) ∧ Goes far (ctx1 id) (active (ctx1 id) none) { wait := true } ∧ far.mxOf 0 = [] ∧ far.vectorHeld (far.gridOf (ctx1 id).g).vf 0 = true) := by
  refine ⟨⟨readyOf (by rfl) (by decide +kernel), goesOf (by decide +kernel), ?_⟩, ⟨meets (by decide +kernel), ?_⟩, readyOf (by rfl) (by decide +kernel), goesOf (by decide +kernel), ?_, ?_, ?_, ?_, ?_,
    readyOf (by rfl) (by decide +kernel), goesOf (by decide +kernel), ?_, ?_⟩ <;> (try unfold RowsFree) <;> decide +kernel
/-- A group at an address that no page maps. -/
def lost (g : Group) : Group := g.setPc (BitVec.allOnes 64) fun _ => 0xFFFF800000000000
theorem witness_FaultsEnterTheHandler :
    (Ready (sv id) (ctx1 id) ∧ (sv id).vectorHeld ((sv id).gridOf (ctx1 id).g).vf 1 = false ∧ (sv id).vector ((sv id).gridOf (ctx1 id).g).vf 1 = some (0x4000, 8, 0) ∧ RowsFree (sv id) (ctx1 id) 8) ∧
    (Ready s0 c0 ∧ s0.vectorHeld (s0.gridOf c0.g).vf 1 = false ∧ s0.vector (s0.gridOf c0.g).vf 1 = none) ∧ (Ready far (ctx1 id) ∧ far.vectorHeld (far.gridOf (ctx1 id).g).vf 1 = true) ∧
    (Ready (with0 lost) (ctx1 lost) ∧ (∃ f, (with0 lost).fetchFlt (ctx1 lost) = some f ∧ f.kind ≠ 0x0701 ∧ f.kind ≠ 0x0D01)) := by
  refine ⟨⟨readyOf (by rfl) (by decide +kernel), ?_⟩, ⟨ready0, ?_⟩, ⟨readyOf (by rfl) (by decide +kernel), ?_⟩, readyOf (by rfl) (by decide +kernel), ⟨0x0609, BitVec.allOnes 64, 0xFFFF800000000000, 768⟩, ?_⟩ <;>
    (try unfold RowsFree) <;> decide +kernel
/-- A handler frame over the frame that `brk` interrupted. -/
def handled (g : Group) : Group := let h := callee true g
  { h with frames := h.frames.map fun f => { f with k := 0 }, regs := { h.regs with mode := true, traps := [entry] } }
theorem witness_RtiRestoresTheEntry : let s := with0 handled; let c := ctx1 handled
    Ready s c ∧ Goes s c (active c none) { wait := true } ∧ c.g.regs.mode = true ∧
      (∃ f u e, c.g.frames = f :: u :: c.g.frames.tail.tail ∧ f.handler = true ∧ c.g.regs.traps = e :: c.g.regs.traps.tail ∧ u.spilled = false ∧ f.k = 0) ∧
      EndsFrame c c.g.atRti ∧ s.flying c.key c.g.fdepth = false ∧ (s.core (coreOf c.key)).line = [] := by
  refine ⟨readyOf (by rfl) (by decide +kernel), goesOf (by decide +kernel), by decide +kernel, ⟨_, _, _, rfl, by rfl, rfl, by rfl, by rfl⟩, ?_⟩
  unfold EndsFrame; decide +kernel
theorem witness_PrivilegeFaults : (Ready (with0 few) (ctx1 few) ∧ (ctx1 few).g.regs.mode = false ∧ (with0 few).hazard 0 (ctx1 few).mask { wait := true } = false ∧
      (ctx1 few).g.endsFrame (ctx1 few).mask = false) ∧
    (Ready s0 c0 ∧ c0.g.regs.mode = false ∧ s0.hazard c0.key c0.mask { sdsts := [31] } = false ∧ s0.hazard c0.key c0.mask { dsts := [(59, 1)] } = false ∧
      s0.hazard c0.key c0.mask { ssrcs := [31] } = false) :=
  ⟨⟨readyOf (by rfl) (by decide +kernel), by decide +kernel⟩, ready0, by decide +kernel⟩
theorem reaches {s : State} {c : Ctx} {reqs : List Req} (h : (s.checkAll c.g (coreOf c.key) reqs).isOk = true) : ∃ accs, Reaches s c reqs accs := by
  unfold Reaches
  cases hx : s.checkAll c.g (coreOf c.key) reqs with
  | ok a => exact ⟨a, rfl⟩
  | error e => rw [hx] at h; cases h
/-- The test state under a grid with attributes (R299): bit 0 GUARDED, 3 DIERES, 4 GRIDRES, 5 sparse index queues, 6 work queues. -/
def sa (attrs : Nat) (f : Group → Group) : State :=
  { with0 f with grids := [(1, { noGrid with num := 1, card := setField card0 1 1 attrs, bind := bind0, pool := [entry0] })] }
/-- The lanes' requests at row 0 (all zeros). -/
def at0 (n acc : Nat) (form : Form) : List Req := laneReqs (active c0 none) n acc form fun _ => 0

theorem witness_NarrowConversionResults : ∀ x ∈ ([(.cvtnPk ⟨.row 0, .row 56, false, 59, none⟩, { srcs := [(.row 56, 4), (.row 0, 1)], dsts := [(59, 1)], val := wordFault c0.g (active c0 none) (.row 0) FmtWord.valid }),
    (.cvtnUnpk ⟨.row 0, .row 1, false, 56, none⟩, { srcs := [(.row 1, 1), (.row 0, 1)], dsts := [(56, 4)], val := wordFault c0.g (active c0 none) (.row 0) FmtWord.valid })] :
    List (Instr × Op)), Meets x.1 x.2 := meetsAll (by decide +kernel)
theorem witness_SpecialRegisterReads : (∀ x ∈ ([(.gsr .lane 31, { sdsts := [31] }), (.gsrv false .tid 59, { dsts := [(59, 1)] }), (.clk 0, { sdsts := [0] }), (.lclk 31, { sdsts := [31] }),
    (.spool 0 0, { sdsts := [0] })] : List (Instr × Op)), Meets x.1 x.2) ∧ (0 : BitVec 8).toNat < (s0.gridOf c0.g).poolCount := ⟨meetsAll (by decide +kernel), by decide +kernel⟩
/-- The group with a trap-stack entry, in privileged mode. -/
def kernel (g : Group) : Group := { g with regs := { g.regs with traps := [entry], mode := true } }
theorem witness_SpecialRegisterWrites : Meets (.ssr .xqsel 1) { ssrcs := [1] } ∧ (∀ r : SpReg, r.writable = true →
      (Instr.ssr r 1).wf = true ∧ Ready (with0 kernel) (ctx1 kernel) ∧ Goes (with0 kernel) (ctx1 kernel) (active (ctx1 kernel) none) { ssrcs := [1] } ∧ (ctx1 kernel).g.regs.mode = true) ∧
    Meets (.bound 63 1) { ssrcs := [1], stall := c0.g.readsOpen } ∧ c0.g.mio.fifo = [] ∧ (c0.g.s 1).toNat % 32 = 0 ∧ (c0.g.s 1).toNat + 32 ≤ (s0.gridOf c0.g).alloc ∧
      bdBad ((s0.team c0.g.team).scr.readN (c0.g.s 1).toNat 32) = false ∧ (get {} (s0.grid c0.g.grid).bds 63).act ≠ 1 :=
  ⟨meets (by decide +kernel), fun r h => ⟨h, readyOf (by rfl) (by decide +kernel), goesOf (by decide +kernel), by decide +kernel⟩, meets (by decide +kernel), by decide +kernel⟩
theorem witness_LoadsEnterTheMemorySystem :
    (∀ x ∈ ([(.ld128 ⟨.row 0, 31, 56, none⟩, { srcs := [(.row 0, 1)], ssrcs := [31], dsts := [(56, 4)] }), (.ldl32 ⟨511, 0, 59, none⟩, { ssrcs := [0], dsts := [(59, 1)] }),
      (.lds128 ⟨false, .row 0, 56, none⟩, { srcs := [(.row 0, 1)], dsts := [(56, 4)] }), (.ldAcq64 ⟨true, .row 0, 58, .sys⟩, { srcs := [(.row 0, 2)], dsts := [(58, 2)] }),
      (.mld ⟨7, .row 0⟩, { srcs := [(.row 0, 2)], mdsts := [(112, 16)] }), (.ldw64 ⟨false, .row 0, 58, 0⟩, { srcs := [(.row 0, 1)], dsts := [(58, 2)] }),
      (.sldw ⟨0, 31, 0⟩, { ssrcs := [0], sdsts := [31] })] : List (Instr × Op)), Meets x.1 x.2) ∧ AskRoom s0 c0 64 ∧
    (∃ a, Reaches s0 c0 (at0 16 0 .gen) a) ∧ (∃ a, Reaches s0 c0 (at0 16 0 .off) a) ∧ (∃ a, Reaches s0 c0 (at0 64 0 .gen) a) ∧
    (∃ a, Reaches s0 c0 ((lanesOf (active c0 none)).map fun l => winReq (s0.gridOf c0.g) 0 8 l 0) a) ∧ (s0.gridOf c0.g).winBound 0 = true ∧ 8 ≤ (s0.gridOf c0.g).winSize 0 :=
  ⟨meetsAll (by decide +kernel), by unfold AskRoom; decide +kernel, reaches (by decide +kernel), reaches (by decide +kernel), reaches (by decide +kernel),
    reaches (by decide +kernel), by decide +kernel⟩
theorem witness_StoresEnterTheFifo :
    (∀ x ∈ ([(.st128 ⟨.row 0, 31, .row 56, none⟩, { srcs := [(.row 0, 1), (.row 56, 4)], ssrcs := [31] }), (.stl32 ⟨511, 0, .row 59, none⟩, { srcs := [(.row 59, 1)], ssrcs := [0] }),
      (.sts128 ⟨.row 0, .row 56, none⟩, { srcs := [(.row 0, 1), (.row 56, 4)] }), (.stRel64 ⟨.row 0, .row 58, .sys⟩, { srcs := [(.row 0, 2), (.row 58, 2)] }),
      (.mst ⟨7, .row 0⟩, { srcs := [(.row 0, 2)], msrcs := [(112, 16)] })] : List (Instr × Op)), Meets x.1 x.2) ∧ FifoRoom c0 ∧
    (∃ a, Reaches s0 c0 (at0 16 1 .gen) a) ∧ (∃ a, Reaches s0 c0 (at0 16 1 .off) a) ∧ (∃ a, Reaches s0 c0 (at0 64 1 .gen) a) ∧ (s0.grid c0.g.grid).bds = [] :=
  ⟨meetsAll (by decide +kernel), by unfold FifoRoom; decide +kernel, reaches (by decide +kernel), reaches (by decide +kernel), reaches (by decide +kernel), by decide +kernel⟩
theorem witness_AtomicsEnterTheFifo :
    (∀ x ∈ ([(.atomCas64 ⟨.row 0, 56, .sys⟩, { srcs := [(.row 0, 2), (.row 56, 4)], dsts := [(56, 2)] }), (.atomAddAr32 ⟨.row 0, 59, .grp⟩, { srcs := [(.row 0, 2), (.row 59, 1)], dsts := [(59, 1)] }),
      (.redXor64 ⟨.row 0, .row 58, .die⟩, { srcs := [(.row 0, 2), (.row 58, 2)] })] : List (Instr × Op)), Meets x.1 x.2) ∧ FifoRoom c0 ∧ AskRoom s0 c0 64 ∧
    (∃ a, Reaches s0 c0 (at0 8 2 (.atom .cas)) a) ∧ (∃ a, Reaches s0 c0 (at0 4 2 (.atom .add)) a) ∧ (∃ a, Reaches s0 c0 (at0 8 2 (.atom .xor)) a) :=
  ⟨meetsAll (by decide +kernel), by unfold FifoRoom; decide +kernel, by unfold AskRoom; decide +kernel, reaches (by decide +kernel), reaches (by decide +kernel), reaches (by decide +kernel)⟩
theorem witness_PrefetchAndPoison : Meets (.pf ⟨.row 59, 31, none⟩) { srcs := [(.row 59, 1)], ssrcs := [31], skip := true, own := c0.g.poisonFault (active c0 none) [(.row 59, 1)] [] [31] } ∧
    (s0.check c0.g 0 { lane := 0, va := 0, n := 1, align := 1, acc := 0 }).isOk = true ∧ Meets (.poison (.row 0) none) { srcs := [(.row 0, 2)] } ∧ FifoRoom c0 ∧
    ∃ a, Reaches s0 c0 ((lanesOf (active c0 none)).map fun l => { lane := l, va := 0, n := 128, align := 1, acc := 1, form := .poison }) a :=
  ⟨meets (by decide +kernel), by decide +kernel, meets (by decide +kernel), by unfold FifoRoom; decide +kernel, reaches (by decide +kernel)⟩
/-- Rows 0 and 1 and scalar 1 hold what no address and no offset is. -/
def wild (g : Group) : Group := scs [(1, 0x800000000001)] (rows [(0, 0xFFFF0001), (1, 0xFFFF0001)] g)
/-- An instruction that goes ahead there until its addresses are checked, and fails. -/
def Fails (i : Instr) (o : Op) (reqs : List Req) : Prop :=
  i.wf = true ∧ Ready (with0 wild) (ctx1 wild) ∧ Goes (with0 wild) (ctx1 wild) (active (ctx1 wild) none) o ∧ ∃ f, (with0 wild).checkAll (ctx1 wild).g 0 reqs = .error f
theorem failsAll {l : List (Instr × Op × List Req)} (h : (l.all fun x => x.1.wf && ((with0 wild).hazard 0 (active (ctx1 wild) none) x.2.1 == false && x.2.1.stall == false &&
      (ctx1 wild).g.faultBefore (active (ctx1 wild) none) x.2.1 == none) && !((with0 wild).checkAll (ctx1 wild).g 0 x.2.2).isOk) = true) : ∀ x ∈ l, Fails x.1 x.2.1 x.2.2 := by
  intro x hx
  have := List.all_eq_true.mp h x hx
  simp only [Bool.and_eq_true, beq_iff_eq, Bool.not_eq_true'] at this
  refine ⟨this.1.1, readyOf (by rfl) (by decide +kernel), ⟨this.1.2.1.1, this.1.2.1.2, this.1.2.2⟩, ?_⟩
  cases hc : (with0 wild).checkAll (ctx1 wild).g 0 x.2.2 with
  | error f => exact ⟨f, rfl⟩
  | ok a => rw [hc] at this; cases this.2
/-- Each family of accesses, over addresses and offsets that fail; a window that is not bound. -/
theorem witness_FailedAccessesFault :
    (let c := ctx1 wild; let m := active c none
     ∀ x ∈ ([(.ld32 ⟨.row 0, 31, 3, none⟩, { srcs := [(.row 0, 1)], ssrcs := [31], dsts := [(3, 1)] }, laneReqs m 4 0 .gen (sumAddr 31 (.row 0) c)),
      (.ldl32 ⟨511, 1, 59, none⟩, { ssrcs := [1], dsts := [(59, 1)] }, laneReqs m 4 0 .gen (stepAddr 1 511 c)),
      (.lds128 ⟨false, .row 0, 56, none⟩, { srcs := [(.row 0, 1)], dsts := [(56, 4)] }, laneReqs m 16 0 .off fun l => (word c (.row 0) l).setWidth 64),
      (.ldAcq64 ⟨true, .row 0, 58, .sys⟩, { srcs := [(.row 0, 2)], dsts := [(58, 2)], nw := true }, laneReqs m 8 0 .gen fun l => pair c (.row 0) l),
      (.mld ⟨7, .row 0⟩, { srcs := [(.row 0, 2)], mdsts := [(112, 16)] }, laneReqs m 64 0 .gen fun l => pair c (.row 0) l),
      (.ldw64 ⟨false, .row 0, 58, 0⟩, { srcs := [(.row 0, 1)], dsts := [(58, 2)] },
        (lanesOf m).map fun l => winReq ((with0 wild).gridOf c.g) 0 8 l (word c (.row 0) l).toNat),
      (.sldw ⟨1, 31, 0⟩, { ssrcs := [1], sdsts := [31] }, (lanesOf m).map fun l => winReq ((with0 wild).gridOf c.g) 0 8 l (c.g.s 1).toNat),
      (.st128 ⟨.row 0, 31, .row 56, none⟩, { srcs := [(.row 0, 1), (.row 56, 4)], ssrcs := [31] }, laneReqs m 16 1 .gen (sumAddr 31 (.row 0) c)),
      (.stl32 ⟨511, 1, .row 59, none⟩, { srcs := [(.row 59, 1)], ssrcs := [1] }, laneReqs m 4 1 .gen (stepAddr 1 511 c)),
      (.sts128 ⟨.row 0, .row 56, none⟩, { srcs := [(.row 0, 1), (.row 56, 4)] }, laneReqs m 16 1 .off fun l => (word c (.row 0) l).setWidth 64),
      (.stRel64 ⟨.row 0, .row 58, .sys⟩, { srcs := [(.row 0, 2), (.row 58, 2)] }, laneReqs m 8 1 .gen fun l => pair c (.row 0) l),
      (.mst ⟨7, .row 0⟩, { srcs := [(.row 0, 2)], msrcs := [(112, 16)] }, laneReqs m 64 1 .gen fun l => pair c (.row 0) l),
      (.poison (.row 0) none, { srcs := [(.row 0, 2)] },
        (lanesOf m).map fun l => { lane := l, va := (pair c (.row 0) l).toNat, n := 128, align := 1, acc := 1, form := .poison }),
      (.atomCas64 ⟨.row 0, 56, .sys⟩, { srcs := [(.row 0, 2), (.row 56, 4)], dsts := [(56, 2)] }, laneReqs m 8 2 (.atom .cas) (pair c (.row 0))),
      (.redXor64 ⟨.row 0, .row 58, .die⟩, { srcs := [(.row 0, 2), (.row 58, 2)] }, laneReqs m 8 2 (.atom .xor) (pair c (.row 0)))] : List (Instr × Op × List Req)),
      Fails x.1 x.2.1 x.2.2) ∧
    FifoRoom (ctx1 wild) ∧ AskRoom (with0 wild) (ctx1 wild) 64 ∧ ((with0 wild).gridOf (ctx1 wild).g).winBound 0 = true ∧
    (Meets (.ldw64 ⟨false, .row 0, 58, 1⟩) { srcs := [(.row 0, 1)], dsts := [(58, 2)] } ∧ c0.mask ≠ 0 ∧ (s0.gridOf c0.g).winBound 1 = false) :=
  ⟨failsAll (by decide +kernel), by unfold FifoRoom; decide +kernel, by unfold AskRoom; decide +kernel, by decide +kernel, meets (by decide +kernel), by decide +kernel⟩
/-- A core whose L1 holds a line with a clean and a dirty byte. -/
def dirtied : State := { s0 with cores := [(0, { l1 := [(lineKey false 0x1000, { bytes := [(0, (1, false)), (1, (2, true))] })], dirty := [lineKey false 0x1000] })] }
theorem witness_FencesAndAcquires : Meets (.fenceRel .sys) {} ∧ Meets (.fenceAcq .grp) { stall := c0.g.awaits } ∧ Meets (.fence .die) { stall := c0.g.awaits || (Scope.die != .grp && c0.g.mio.fifo != []) } ∧
    (∀ j, LinesOnce (dirtied.core j).l1) ∧ LinesOnce (dirtied.die (dieOf 0)).visitors ∧ 0 ∈ l1Cores false 0 ∧ 1 ∉ l1Cores false 0 ∧
    ((dirtied.acquire 0 false .die).core 0).l1 = [(lineKey false 0x1000, { bytes := [(1, (2, true))] })] := by
  refine ⟨meets (by decide +kernel), meets (by decide +kernel), meets (by decide +kernel), fun j => ?_, by unfold LinesOnce; decide +kernel, by decide +kernel, by decide +kernel, by decide +kernel⟩
  unfold LinesOnce
  by_cases h : j = 0
  · subst h; decide +kernel
  · have : (dirtied.core j).l1 = [] := by simp [dirtied, State.core, Machine.get, Ne.symm h]
    rw [this]; decide
theorem witness_BarrierResults : (∀ l, Meets (.bar l) { wait := true } ∧ Meets (.barArr l) { wait := true } ∧ Meets (.barWt l) { wait := true }) ∧ (s0.gridOf c0.g).guarded = false ∧
    (Ready (sa 0x18 id) c0 ∧ ((sa 0x18 id).gridOf c0.g).attr 3 = true ∧ ((sa 0x18 id).gridOf c0.g).attr 4 = true ∧ Goes (sa 0x18 id) c0 (active c0 none) { wait := true }) ∧
    (Ready (sa 1 id) c0 ∧ ((sa 1 id).gridOf c0.g).guarded = true ∧ Goes (sa 1 id) c0 (active c0 none) { wait := true }) :=
  ⟨fun l => by cases l <;> exact ⟨meets (by decide +kernel), meets (by decide +kernel), meets (by decide +kernel)⟩, by decide +kernel,
    ⟨readyOf (by rfl) (by decide +kernel), by decide +kernel, by decide +kernel, goesOf (by decide +kernel)⟩, readyOf (by rfl) (by decide +kernel), by decide +kernel, goesOf (by decide +kernel)⟩
/-- The test state with hatch slots declared for its kernel, and a handle in hatch 0. -/
def hatched (l : List W32) : State := { s0 with decls := [(0, [2, 0, 0, 0, 0, 0, 0, 0])], teams := put s0.teams 1 { s0.team 1 with hatch := [(0, l)] } }
theorem witness_SemaphoreAndHatchResults : Meets (.semSet ⟨31, 3, .sys⟩) { ssrcs := [31] } ∧ Meets (.semAdd ⟨31, 0, .grp⟩) { ssrcs := [31] } ∧
    Meets (.semWait 31 3) { ssrcs := [31], wait := true } ∧ 3 < (s0.gridOf c0.g).nsem ∧
    (∀ l : List W32, l = [] ∨ l = [7] → Ready (hatched l) c0 ∧ (hatched l).hatchSlots c0.g.team 0 ≠ 0 ∧ ((hatched l).team c0.g.team).handles 0 = l ∧
      Goes (hatched l) c0 (active c0 none) { sdsts := [31], wait := true } ∧ Goes (hatched l) c0 (active c0 none) { ssrcs := [31], wait := true } ∧
      ((hatched l).team c0.g.team).poppers = [] ∧ ((hatched l).team c0.g.team).pushers = [] ∧ ((hatched l).team c0.g.team).headPx 0 = false) := by
  refine ⟨meets (by decide +kernel), meets (by decide +kernel), meets (by decide +kernel), by decide +kernel, ?_⟩
  rintro l (rfl | rfl)
  · exact ⟨readyOf (by rfl) (by decide +kernel), by decide +kernel, by decide +kernel, goesOf (by decide +kernel), goesOf (by decide +kernel), by decide +kernel⟩
  · exact ⟨readyOf (by rfl) (by decide +kernel), by decide +kernel, by decide +kernel, goesOf (by decide +kernel), goesOf (by decide +kernel), by decide +kernel⟩
/-- A job card for scratchpad ranges (R236): 64 bytes from offset 0 to offset 1024, one index at offset 2048, one row of 64 bytes. -/
def jobCard (op : Nat) : List Byte :=
  let c := setField (setField (setField (setField (setField (zeros 128) 0 1 op) 16 8 scrBase) 24 8 64) 48 8 (scrBase + 1024)) 56 8 64
  match op with
  | 1 => setField (setField c 80 4 64) 84 4 1
  | 2 | 3 => setField (setField (setField c 32 8 (scrBase + 2048)) 40 8 4) 84 4 1
  | 4 => setField (setField c 16 8 0) 24 8 0
  | _ => setField c 96 8 1
/-- The test state with bytes at the start of its team's scratchpad. -/
def scratch (l : List Byte) : State := { sa 0x60 id with teams := put s0.teams 1 { s0.team 1 with scr := Mem.writeN [] 0 l } }
theorem witness_EnqEntersJobs :
    (∀ x ∈ ([(.enqCopy, 1), (.enqGather, 2), (.enqScatter, 3), (.enqFill, 4), (.enqColl, 5)] : List ((XEnq → Instr) × Nat)),
      (x.1 ⟨.row 0, none⟩).wf = true ∧ Ready (scratch (jobCard x.2)) c0 ∧ Goes (scratch (jobCard x.2)) c0 (active c0 none) { srcs := [(.row 0, 1)], stall := c0.g.readsOpen } ∧
      0 + 128 ≤ ((scratch (jobCard x.2)).gridOf c0.g).alloc ∧ (scratch (jobCard x.2)).cardBad c0.g.team x.2 ((scratch (jobCard x.2)).scrCard c0 0 128) = none) ∧
    (s0.jobEntry (coreOf 0) (s0.gridOf (s0.grp 0)).vf = some 0 ∧ (s0.gridOf (s0.grp 0)).guarded = false) ∧
    (let s := s0.setVf 0 { s0.vf 0 with quota0 := 0 }; s.jobEntry (coreOf 0) (s.gridOf (s.grp 0)).vf = none) := by
  refine ⟨fun x hx => ?_, by decide +kernel, by decide +kernel⟩
  simp only [List.mem_cons, List.not_mem_nil, or_false] at hx
  rcases hx with rfl | rfl | rfl | rfl | rfl <;>
    exact ⟨by rfl, readyOf (by rfl) (by decide +kernel), goesOf (by decide +kernel), by decide +kernel, by decide +kernel⟩
/-- The test state with work queue 0 of VF 0. -/
def queued (q : Wq) : State := (sa 0x40 id).setWq 0 0 q
/-- A work queue of 16 records at 0x4000. -/
def wq0 : Wq := { base := 0x4000, size := 16, head := 0, tail := 0, line := [] }
theorem witness_QueueAndLaunchInstructions :
    (let s := queued wq0; Ready s c0 ∧ Goes s c0 (active c0 none) { ssrcs := [1, 2], wait := true } ∧ (s.gridOf c0.g).attr 6 = true ∧ (c0.g.s 1).toNat ≤ 63 ∧
      s.wq (s.gridOf c0.g).vf (c0.g.s 1).toNat = some wq0 ∧ (c0.g.s 2).toNat % 64 = 0 ∧ (c0.g.s 2).toNat + 64 ≤ (s.gridOf c0.g).alloc) ∧
    (Ready s0 c0 ∧ Goes s0 c0 (active c0 none) { ssrcs := [31], sdsts := [31], stall := c0.g.readsOpen } ∧ (c0.g.s 31).toNat % 256 = 0 ∧
      (c0.g.s 31).toNat + 256 ≤ (s0.gridOf c0.g).alloc) ∧ Goes s0 c0 (active c0 none) {} :=
  ⟨⟨readyOf (by rfl) (by decide +kernel), goesOf (by decide +kernel), by decide +kernel⟩, ⟨ready0, goes0 (by decide +kernel), by decide +kernel⟩, goes0 (by decide +kernel)⟩
/-- A group whose row 0 holds w0 and row 1 w1, the first words of an item or a pattern. -/
def tagged (w0 w1 : W32) (g : Group) : Group := rows [(0, w0), (1, w1)] g
theorem witness_PantryInstructions :
    (let s := with0 (tagged 7 1); let c := ctx1 (tagged 7 1)
      (Instr.pdep (.row 0) 0).wf = true ∧ Ready s c ∧ Goes s c (active c none) { srcs := [(.row 0, 16)], wait := true } ∧ (s.gridOf c.g).panBound 0 = true ∧
        ∀ l : Fin 64, itemBad (pair c (.row 0) l.val) = false) ∧
    (let s := with0 (tagged 7 0); let c := ctx1 (tagged 7 0)
      (∀ try_ : Bool, (Instr.ptake ⟨try_, .row 0, 44, 0⟩).wf = true ∧ (Instr.pcopy ⟨try_, .row 0, 44, 0⟩).wf = true) ∧ Ready s c ∧
        Goes s c (active c none) { srcs := [(.row 0, 16)], dsts := [(44, 16)], wait := true } ∧ ∀ l : Fin 64, patBad (pair c (.row 0) l.val) = false) :=
  ⟨⟨by decide, readyOf (by rfl) (by decide +kernel), goesOf (by decide +kernel), by decide +kernel⟩,
    ⟨by decide, readyOf (by rfl) (by decide +kernel), goesOf (by decide +kernel), by decide +kernel⟩⟩
theorem witness_MatrixInstructions :
    (∀ sp : Bool, let s := sa 0x20 id; let f : MX := ⟨.row 59, 4, 16, 0⟩
      (if sp then Instr.mxSp f else .mx f).wf = true ∧ Ready s c0 ∧ Goes s c0 (active c0 none)
        { srcs := [(.row 0, aRows sp ⟨0⟩), (.row 16, bRows ⟨0⟩), (.row 59, 1)], mdsts := [(64, 64)], mxD := true, skip := true, own := mxChecks c0.g (active c0 none) sp f } ∧
        (s.mxAt (coreOf c0.key)).length < 16 ∧ (s.gridOf c0.g).attr 5 = true) ∧
    Meets (.mzero 7) { mdsts := [(112, 16)] } ∧ Meets (.mmovVm 7 15 59) { msrcs := [(127, 1)], dsts := [(59, 1)] } ∧
    Meets (.mmovMv 0 0 (.row 59)) { srcs := [(.row 59, 1)], mdsts := [(0, 1)] } ∧
    (Ready (sa 0x20 id) c0 ∧ (Instr.mxq 3 (.row 59)).wf = true ∧ Goes (sa 0x20 id) c0 (active c0 none) { srcs := [(.row 59, 1)] } ∧
      (((sa 0x20 id).team c0.g.team).xqState 3).2 < 8 ∧ c0.g.readsOpen = false ∧ c0.g.mio.fifo = []) :=
  ⟨fun sp => by cases sp <;> exact ⟨by rfl, readyOf (by rfl) (by decide +kernel), goesOf (by decide +kernel), by decide +kernel, by decide +kernel⟩,
    meets (by decide +kernel), meets (by decide +kernel), meets (by decide +kernel), readyOf (by rfl) (by decide +kernel), by decide, goesOf (by decide +kernel), by decide +kernel⟩
theorem get_all {α : Type} {P : α → Prop} {d : α} (hd : P d) : ∀ {m : FMap α}, (∀ e ∈ m, P e.2) → ∀ k, P (get d m k)
  | [], _, _ => hd
  | e :: m, h, k => by
    unfold Machine.get
    split
    · exact h _ (List.mem_cons_self ..)
    · exact get_all hd (fun x hx => h x (List.mem_cons_of_mem _ hx)) k
theorem get?_all {α : Type} {P : α → Prop} : ∀ {m : FMap α}, (∀ e ∈ m, P e.2) → ∀ {k v}, get? m k = some v → P v
  | [], _, _, _, h => by cases h
  | e :: m, h, k, v, hv => by
    unfold Machine.get? at hv
    split at hv
    · cases hv; exact h _ (List.mem_cons_self ..)
    · exact get?_all (fun x hx => h x (List.mem_cons_of_mem _ hx)) hv
theorem linesIn {s : State} (h1 : ∀ e ∈ s.cores, ∀ x ∈ e.2.l1, ∀ b ∈ x.2.bytes, b.1 < 128) (h2 : ∀ e ∈ s.dies, ∀ x ∈ e.2.visitors, ∀ b ∈ x.2.bytes, b.1 < 128) : LinesIn s :=
  ⟨fun c _ _ hl => get?_all (P := fun l : Line => ∀ e ∈ l.bytes, e.1 < 128) (get_all (P := fun c : Core => ∀ x ∈ c.l1, ∀ b ∈ x.2.bytes, b.1 < 128) (by simp) h1 c) hl,
    fun d _ _ hl => get?_all (P := fun l : Line => ∀ e ∈ l.bytes, e.1 < 128) (get_all (P := fun d : Die => ∀ x ∈ d.visitors, ∀ b ∈ x.2.bytes, b.1 < 128) (by simp) h2 d) hl⟩
theorem cachesOnce {s : State} (h1 : ∀ e ∈ s.cores, LinesOnce e.2.l1) (h2 : ∀ e ∈ s.dies, LinesOnce e.2.visitors) : CachesOnce s :=
  ⟨get_all (P := fun c : Core => LinesOnce c.l1) (by simp [LinesOnce]) h1, get_all (P := fun d : Die => LinesOnce d.visitors) (by simp [LinesOnce]) h2⟩
theorem noPoison {s : State} (h1 : s.mem.devPx = [] ∧ s.mem.parPx = []) (h2 : ∀ e ∈ s.teams, e.2.scrPx = []) (h3 : ∀ e ∈ s.cores, ∀ x ∈ e.2.l1, x.2.px = [])
    (h4 : ∀ e ∈ s.dies, ∀ x ∈ e.2.visitors, x.2.px = []) : NoPoison s :=
  ⟨h1.1, h1.2, get_all (P := fun (t : Team) => t.scrPx = []) rfl h2, fun c k => get_all (P := fun (l : Line) => l.px = []) rfl (get_all (P := fun (c : Core) => ∀ x ∈ c.l1, x.2.px = []) (by simp) h3 c) k,
    fun d k => get_all (P := fun (l : Line) => l.px = []) rfl (get_all (P := fun (d : Die) => ∀ x ∈ d.visitors, x.2.px = []) (by simp) h4 d) k⟩
theorem stays {s : State} {k : Nat} (h : ((s.grp k).live && (s.grp k).study.phase == 0 && (s.grp k).study.halt.isEmpty && (s.grp k).lanes.present &&& ~~~ (s.grp k).lanes.fin != 0) = true) : Stays s k := by
  simp only [Bool.and_eq_true, beq_iff_eq, bne_iff_ne, List.isEmpty_iff] at h
  exact ⟨h.1.1.1, h.1.1.2, h.1.2, h.2⟩
theorem l1Place {s : State} (h : s.cores = []) (c : Nat) (f : Bool) : L1Place s c f := by
  intro j _ k l hl
  simp [State.core, h, Machine.get, Machine.get?] at hl
/-- Caches that hold nothing hold nothing stale. -/
theorem settled {s : State} (h : s.cores = []) (hd : ∀ e ∈ s.dies, e.2.visitors = []) (c : Nat) (f : Bool) (a : Acc) : Settled s c f a := by
  have hl : ∀ j, (s.core j).l1 = [] := fun j => by simp [State.core, h, Machine.get]
  have hv : ∀ d, (s.die d).visitors = [] := get_all (P := fun d : Die => d.visitors = []) rfl hd
  constructor <;> simp [hl, hv, CachesOnce, LinesOnce, LinesIn, Machine.get?]
theorem linesAgree {as bs : List Acc} (h : (as.all fun a => bs.all fun b => match lineOf a.tgt, lineOf b.tgt with
    | some p, some q => p.1 != q.1 || p.2 == q.2
    | _, _ => true) = true) : LinesAgree as bs := by
  intro a ha b hb p q hp hq hpq
  have := List.all_eq_true.mp (List.all_eq_true.mp h a ha) b hb
  simpa [hp, hq, hpq] using this
/-- The test state with something in its group's memory system. -/
def ev (m : Mio) : State := with0 fun g => { g with mio := m }
/-- It holds one store-FIFO entry. -/
def one (o : FOp) : Mio := { seq := 1, fifo := [⟨0, 0, o, 0, 0x20, []⟩] }
/-- Lane 5 accesses the word at 0x1000. -/
def acc5 : Acc := ⟨5, 0x1000, .dev 0x1000 false, 4⟩
theorem acc5_inLine : Acc.inLine acc5 := by show (0x1000 : Nat) % 128 + 4 ≤ 128; decide
/-- Its load into v3. -/
def ld5 : Ld := ⟨0, 0, .rows true 3 1, [acc5], none, 0, 0x20⟩
theorem witness_AccessEvents_loads : (let s := ev { seq := 1, loads := [ld5] }
      Stays s 0 ∧ (s.grp 0).mio.loads[0]? = some ld5 ∧ s.landable 0 ld5 = true ∧ (∀ a ∈ ld5.accs, Acc.inLine a) ∧ LinesAgree ld5.accs ld5.accs ∧
        (∀ a ∈ ld5.accs, s.asksHost (coreOf 0) (s.gridOf (s.grp 0)).fused a = false) ∧ NoPoison s) ∧
    (ld5.dst = .rows true 3 1 ∧ ld5.depth = fetchGroup.fdepth ∧ fetchGroup.frames ≠ []) := by
  refine ⟨⟨stays (by decide +kernel), by rfl, by decide +kernel, fun a h => List.mem_singleton.mp h ▸ acc5_inLine, linesAgree (by decide +kernel), by decide +kernel,
    noPoison (by decide +kernel) (by decide +kernel) (by decide +kernel) (by decide +kernel)⟩, by decide +kernel⟩
theorem witness_AccessEvents_stores : (let s := ev (one (.store [(acc5, [1, 2, 3, 4])]))
      Stays s 0 ∧ (s.grp 0).mio.fifo = [⟨0, 0, .store [(acc5, [1, 2, 3, 4])], 0, 0x20, []⟩] ∧ s.headHeld 0 ⟨0, 0, .store [(acc5, [1, 2, 3, 4])], 0, 0x20, []⟩ = false ∧
        Acc.inLine acc5 ∧ L1Place s 0 (s.gridOf (s.grp 0)).fused ∧ Settled s 0 (s.gridOf (s.grp 0)).fused acc5) ∧
    (let a : Acc := ⟨5, 0x1000, .dev 0x1000 false, 128⟩
      let s := ev (one (.poison [a]));
      Stays s 0 ∧ s.headHeld 0 ⟨0, 0, .poison [a], 0, 0x20, []⟩ = false ∧ L1Place s 0 (s.gridOf (s.grp 0)).fused ∧ LinesAgree [a] [a] ∧ a.va % 128 = 0 ∧
        Settled s 0 (s.gridOf (s.grp 0)).fused a) ∧
    (let s := ev (one (.atom .add false (some 3) [(acc5, 1, 0)] none));
      Stays s 0 ∧ NoPoison s ∧ s.headHeld 0 ⟨0, 0, .atom .add false (some 3) [(acc5, 1, 0)] none, 0, 0x20, []⟩ = false ∧ LinesIn s ∧ (s.grp 0).fdepth = 0 ∧ (s.grp 0).frames ≠ [] ∧
        (∀ c, get? (s.core c).l1 (lineKey false 0x1000) = none) ∧ ∀ d, get? (s.die d).visitors (lineKey false 0x1000) = none) := by
  refine ⟨⟨stays (by decide +kernel), by rfl, by decide +kernel, acc5_inLine, l1Place (by rfl) _ _, settled (by rfl) (by decide +kernel) _ _ _⟩, ⟨stays (by decide +kernel), by decide +kernel, l1Place (by rfl) _ _,
    linesAgree (by decide +kernel), by rfl, settled (by rfl) (by decide +kernel) _ _ _⟩, stays (by decide +kernel), noPoison (by decide +kernel) (by decide +kernel) (by decide +kernel) (by decide +kernel), by decide +kernel,
    (settled (by rfl) (by decide +kernel) 0 false acc5).inside, by decide +kernel, by decide +kernel, fun c => ?_, get_all (P := fun (d : Die) => get? d.visitors (lineKey false 0x1000) = none) rfl (by decide +kernel)⟩
  rfl
theorem witness_AccessEvents_releases :
    (∀ act, let s := { ev (one (.rel .pkg act)) with cores := dirtied.cores }
      Stays s 0 ∧ (s.grp 0).mio.fifo = [⟨0, 0, .rel .pkg act, 0, 0x20, []⟩] ∧ s.headHeld 0 ⟨0, 0, .rel .pkg act, 0, 0x20, []⟩ = false ∧ (s.gridOf (s.grp 0)).fused = false ∧
        (act = .none → L1Sound s (coreOf 0)) ∧
        ((s.team 1).poppers = [] ∧ (s.team 1).pushers = [])) ∧
    (let s := { s0 with groups := [(0, { fetchGroup with mio := one (.rel .grp (.arrive .team)) }), (1, { fetchGroup with num := 1 })] };
      (s.grp 1).live = true ∧ (s.team (s.grp 1).team).grid = (s.grp 0).grid ∧ s.barInst (s.grp 1).team .team = s.barInst (s.grp 0).team .team ∧
      ¬ partNum (s.grp 1).team (s.grp 1).num ∈ insertNat (partNum (s.grp 0).team (s.grp 0).num) (s.barUnit (s.grp 0).grid .team (s.barInst (s.grp 0).team .team)).arrived ∧
      get? s.teams (s.grp 1).team ≠ none) ∧
    ((hatched []).hatchSlots 1 0 = 2 ∧ ((hatched []).team 1).handles 0 = []) ∧
    (let tm := { (hatched [1, 2]).team 1 with pushers := [(0, 0, 5, BitVec.allOnes 64, false)] };
      tm.pushers[0]? = some (0, 0, 5, BitVec.allOnes 64, false) ∧ tm.poppers = [] ∧ (hatched [1, 2]).hatchSlots 1 0 ≤ (tm.handles 0).length) ∧ (queued wq0).wq ((queued wq0).gridOf ((queued wq0).grp 0)).vf 0 = some wq0 := by
  refine ⟨fun act => ⟨⟨by rfl, by rfl, by rfl, by show (BitVec.allOnes 64 : Mask) &&& ~~~ 0 ≠ 0; decide⟩, by rfl, by rfl, (by decide +kernel : (s0.grid 1).fused = false), ?_, by rfl, by rfl⟩, ?_, by decide +kernel, by decide +kernel, by decide +kernel⟩
  · rintro rfl
    have hk : ∀ k, get? dirtied.cores[0].2.l1 k = none ∨ k = lineKey false 0x1000 := fun k => by
      simp only [dirtied, List.getElem_cons_zero, Machine.get?]; split <;> simp_all
    exact ⟨by unfold LinesOnce; decide +kernel, by unfold LinesOnce; decide +kernel, fun k o ho => ⟨get_all (P := fun l : Line => get? l.bytes o = none) rfl (by
      intro e he; have : o ≠ 0 ∧ o ≠ 1 := by omega
      replace he : e ∈ [(lineKey false 0x1000, ({ bytes := [(0, (1, false)), (1, (2, true))] } : Line))] := he
      simp only [List.mem_singleton] at he; subst he; simp [Machine.get?, this.1.symm, this.2.symm]) k, rfl⟩, fun k l hl _ => rfl,
      linesIn (by decide +kernel) (by decide +kernel), cachesOnce (by unfold LinesOnce; decide +kernel) (by unfold LinesOnce; decide +kernel), fun k _ e l _ hl => by
        have hv : (s0.die e).visitors = [] := get_all (P := fun d : Die => d.visitors = []) rfl (by decide +kernel) e
        change get? (s0.die e).visitors k = some l at hl
        rw [hv] at hl; cases hl⟩
  · exact ⟨by rfl, by rfl, by rfl, by decide +kernel, by decide +kernel⟩
/-- Dies without visitor lines hold nothing that waits to go home. -/
theorem noneWait {s : State} (h : (s.dies.all fun e => e.2.visitors.isEmpty) = true) : NoneWait s := fun d k l hl => by
  have := get_all (P := fun d : Die => d.visitors = []) (d := {}) rfl (fun e he => List.isEmpty_iff.mp (List.all_eq_true.mp h e he)) d
  rw [State.die] at hl
  rw [this] at hl; cases hl
theorem linkless {s : State} (h : s.cores = []) : NoLine s := fun j => by simp [State.core, h, Machine.get]
/-- A core where one group wants more rows than are free. -/
def short : State := { with0 (callee false) with cores := [(0, { line := [⟨0, 5939, .refill⟩] })] }
/-- A bin of 64 lanes that a full group left (R44), due to leave. -/
def bin0 : Bin := { pc := 0x80, role := 0, shape := [(60, 128)], lanes := (List.range 64).map fun l => (l, 0, l), due := true }
/-- A team whose group is in a bin. -/
def binned : State := { s0 with groups := [], teams := put s0.teams 1 { s0.team 1 with live := true, slots := [0], bins := [bin0], ghosts := [(0, fetchGroup)] } }
/-- A group parked by `trap 17`, and by a fault. -/
def parked (w : ParkWhy) (g : Group) : Group := { g with park := some ⟨w, ⟨0x0601, 1, 0, 0x104⟩, 1, 4, 4, 7, false, 1, 0, 0, none, none, false⟩ }
/-- A service ring of 16 records in host memory. -/
def ring0 : Ring := { base := 0x10000, size := 16, set := true }
/-- The test card as a launch card without bindings or a pool. -/
def launchCard : List Byte := setField (setField (setField card0 0 1 1) 72 4 0) 40 2 0
/-- A group whose launch has been sent to the distributor. -/
def launching (card : List Byte) : State :=
  (with0 fun g => { g with stall := some (.launch 0 (BitVec.allOnes 64) card 3 false 0) }).setVf 0 { s0.vf 0 with nextGrid := 2 }
/-- A group that migrates (phase 1) to slot 0 of study core 48, or returns from it (3). -/
def migrating (n : Nat) : State := { with0 fun g => { g with study := { g.study with phase := n, core := 48 } } with studies := [(48, { slots := [(0, 0)] })] }
/-- A card with neither bindings nor a pool is acceptable when the tests of the grid it stands for pass. -/
theorem acceptable {s : State} {vf home : Nat} {card : List Byte} {cmd : Option Nat} (hb : fieldAt card 72 4 = 0) (hp : fieldAt card 40 2 = 0)
    (h : let g := { noGrid with vf := vf, card := card, prio := cardByte card 3 % 8, home := home, cmd := cmd };
      (s.tablesHeld vf card true == false && s.refusal g false false == none && s.acceptWaits g == false && g.recordable == false &&
        (get? s.grids (vf * 2 ^ 32 + (s.vf vf).nextGrid.toNat)).isNone) = true) : Acceptable s vf home card cmd := by
  simp only [Bool.and_eq_true, beq_iff_eq, Option.isNone_iff_eq_none] at h
  refine ⟨h.1.1.1.1, { noGrid with vf := vf, card := card, prio := cardByte card 3 % 8, home := home, cmd := cmd }, s, rfl, ?_, h.1.1.1.2, h.1.1.2, h.1.2, h.2⟩
  rw [if_pos hb, hp]
  exact ⟨rfl, rfl⟩
theorem acceptable0 : Acceptable ((launching launchCard).msg 0 4) 0 0 launchCard none := acceptable (by decide +kernel) (by decide +kernel) (by decide +kernel)
theorem witness_GroupEvents :
    (let s := { s0 with walks := [(0, [⟨0, 0, [0]⟩])] };
      (s.space 0).root = some 0x20000 ∧ s.walk (some 0) (0 : W64).toNat = .ok 0xF 0 ∧ NoneWait s ∧ (Machine.get [] s.walks 0)[0]? = some ⟨0, 0, [0]⟩ ∧ (s.die 0).tlb.length ≤ 32768) ∧
    (∃ k d, (short.shortParts 0).findSome? (fun p => short.nextSpill 0 p true) = some (k, d) ∧ (short.groups.map Prod.fst).Nodup) ∧
    ((∀ w ∈ (s0.core 0).line, w.grp = 0 → ∃ t, w.act = .bin t) ∧ (s0.grp 0).top.spilled = false) ∧
    ((binned.team 1).bins = [bin0] ∧ (binned.team 1).live = true ∧ (binned.team 1).pre ≠ 2 ∧ bin0.due = true ∧ binned.freeNumber 1 = some 0 ∧ NoLine binned ∧
      binned.partOf (binned.grid (binned.team 1).grid) < 16 ∧ coreOf ((binned.team 1).slots.headD 0) = (binned.team 1).core ∧
      chainRows (binGroup bin0 (binned.team 1).ghosts 0).frames ≤ binned.freeRows (binned.team 1).core (binned.partOf (binned.grid (binned.team 1).grid)) ∧
      bin0.sorted[63]? = some (63, 0, 63) ∧ (Machine.get {} (binned.team 1).ghosts 0).frames ≠ []) ∧
    (let s := (with0 (parked (.trap 17))).setVf 0 { s0.vf 0 with svc := ring0 };
      ∃ p, (s.grp 0).park = some p ∧ p.why = .trap 17 ∧ p.sent = false ∧ (s.grp 0).mio.fifo = [] ∧ s.mod_.link.state < 2 ∧ RingRoom (s.vf (s.gridOf (s.grp 0)).vf).svc) ∧
    (let s := with0 (parked .fault); ∃ p, (s.grp 0).park = some p ∧ p.why = .fault ∧ p.sent = false ∧ (s.grp 0).mio.fifo = [] ∧ HomeOff s (s.grp 0).grid) ∧
    (let s := launching launchCard;
      (s.grp 0).stall = some (.launch 0 (BitVec.allOnes 64) launchCard 3 false 0) ∧ (s.grp 0).mio.fifo = [] ∧ Acceptable (s.msg (dieOf (coreOf 0)) 4) (s.gridOf (s.grp 0)).vf (s.gridOf (s.grp 0)).home launchCard none) ∧
    (let s := launching []; (s.grp 0).stall = some (.launch 0 (BitVec.allOnes 64) [] 3 false 0) ∧ (s.grp 0).mio.fifo = [] ∧ fieldAt [] 72 4 = 0 ∧ fieldAt [] 40 2 = 0 ∧
      s.vectorHeld (s.gridOf (s.grp 0)).vf 0x0C = false ∧ s.vector (s.gridOf (s.grp 0)).vf 0x0C = none) ∧
    (let s := with0 fun g => { g with stall := some .plane };
      s.groups.find? (fun e => e.2.stall == some .plane && e.2.mio.fifo == [] && s.asnOf (s.gridOf e.2).vf == some 0) = some (0, { fetchGroup with stall := some .plane })) ∧
    (((migrating 1).grp 0).study.phase = 1 ∧ (migrating 1).drained 0 = true ∧ ((migrating 1).grp 0).study.due = none ∧ ((migrating 1).study 48).r 10 = 0 ∧
      ((migrating 1).gridOf ((migrating 1).grp 0)).vf < 128) ∧
    (((migrating 3).grp 0).study.phase = 3 ∧ (migrating 3).drained 0 = true ∧ ((migrating 3).grp 0).study.reason ≠ 9 ∧ ((migrating 3).study ((migrating 3).grp 0).study.core).r 10 = 0 ∧
      ((migrating 3).grp 0).mio.pans = []) := by
  refine ⟨⟨by rfl, by decide +kernel, noneWait (by decide +kernel), by decide +kernel⟩, ⟨0, 0, by decide +kernel⟩, ⟨fun w h => (by cases h), by rfl⟩, ⟨by rfl, by rfl, by decide +kernel, by rfl, by decide +kernel, linkless (by rfl), by decide +kernel⟩,
    ⟨_, by rfl, by rfl, by rfl, by rfl, by decide +kernel, by unfold RingRoom; decide +kernel⟩, ⟨_, by rfl, by rfl, by rfl, by rfl, by unfold HomeOff; decide +kernel⟩, ⟨by rfl, by rfl, acceptable0⟩,
    by decide +kernel, by decide +kernel, by decide +kernel, by decide +kernel⟩
/-- Two cores of die 0, in suites 0 and 1, serve; each holds a team of grid 1. A grid of gangs of one team that needs a whole scratchpad waits (R313). -/
def crowded (f : Team → Team) (g : Group → Group) : State :=
  { s0 with
    groups := [(0, g fetchGroup), (512, { fetchGroup with team := 2 })]
    teams := [(1, f { s0.team 1 with live := true, grid := 1, core := 0, slots := [0] }), (2, { s0.team 1 with live := true, grid := 1, lin := 1, core := 4, slots := [512] })]
    grids := [(1, { noGrid with num := 1, card := setField card0 8 4 1, run := { next := 2 } }),
      (2, { noGrid with num := 2, order := 1, card := setField (setField (setField card0 2 1 1) 20 4 (s0.part 0).scr) 6 1 0 })]
    cores := [(0, { up := true }), (4, { up := true })] }
/-- Grid 1 waits for its first team. -/
def waiting1 : State := { s0 with groups := [], teams := [], cores := [(0, { up := true })] }
/-- The test state with its grid placed, and its run, its core and its group as given. -/
def placed (r : Run → Run) (c : Core) (f : Team → Team) : State :=
  { s0 with grids := [(1, { noGrid with num := 1, card := card0, bind := bind0, pool := [entry0], run := r { next := 1, inel := false } })], cores := [(0, c)]
            teams := [(1, f (s0.team 1))] }
/-- A matrix operation of the test group. -/
def mx0 : MxOp := ⟨0, 0, false, 0, 16, 0, 0, 0, false, [], 0, BitVec.allOnes 64, false⟩
theorem witness_SchedulingEvents :
    (waiting1.lineOf 0 = [1] ∧ (waiting1.savedTeams 1 = [] ∧ (waiting1.grid 1).rl = none ∧ (waiting1.grid 1).gang = 0 ∧ (waiting1.grid 1).coresident = false) ∧
      (waiting1.grid 1).run.next < (waiting1.grid 1).teams ∧ waiting1.dieOrder 1 = [0] ∧ waiting1.pickCore 0 1 (waiting1.grid 1).teamRows 0 = some 0 ∧
      (waiting1.core 0).arm = [] ∧ waiting1.mod_.cutState = 0 ∧ (waiting1.grid 1).ngroup ≤ (waiting1.freeSlots 0 (waiting1.partOf (waiting1.grid 1))).length ∧
      (waiting1.placeStep 1).isSome = true) ∧
    (let s := { crowded id id with grids := [(1, { noGrid with num := 1, order := 2, card := setField card0 8 4 1, run := { next := 1 } }), (2, (crowded id id).grid 2)] };
      s.lineOf 0 = [2, 1] ∧ (s.placeStep 2).isNone = true ∧ (s.placeStep 1).isSome = true ∧ (s.grid 2).run.waited < 2) ∧
    (let s := crowded id id;
      (s.team 1).going = none ∧ s.lineOf (s.partOf (s.grid (s.team 1).grid)) = [2] ∧ (s.grid 2).gang ≠ 0 ∧ (s.placeStep 2).isNone = true ∧ s.compacts 2 = some (0, 0, [[1]]) ∧
      dieOf 4 = dieOf 0 ∧ 4 % 64 / 4 ≠ 0 % 64 / 4 ∧ s.takesTeam 4 1 = true ∧ (s.team 1).grid ≠ 2) ∧
    (let s := crowded (fun t => { t with going := some 4 }) fun g => { g with study := { g.study with phase := 4 } };
      (s.team 1).going = some 4 ∧ (s.team 1).live = true ∧ (s.team 1).pre = 0 ∧ NoLine s ∧ (∀ j, ∀ e ∈ (s.core j).jobs, e.2.team ≠ 1) ∧
      (∀ e ∈ s.groupsOf 1, e.2.stopped = true ∧ e.2.mio.loads = [] ∧ e.2.mio.fifo = [] ∧ e.2.stall = none ∧ s.mxOf e.1 = []) ∧
      (∀ e ∈ s.groups, e.2.team = 1 → e.2.park = none) ∧ s.takesTeam 4 1 = true) ∧
    (let s := placed id {} id; s.lineOf 0 = [] ∧ s.mod_.cutState = 0) ∧
    (let s := { placed id {} id with mod_ := { s0.mod_ with cutState := 1, cutMask0 := 1 } };
      s.lineOf 0 = [] ∧ s.mod_.cutState = 1 ∧ s.inMask (s.grid 1).vf = true ∧ s.grids = [(1, s.grid 1)] ∧ s.running 0 (1, s.grid 1) = true ∧ (s.grid 1).guarded = false ∧
      ∀ j, (s.grp j).study.phase = 0) ∧
    (∀ e ∈ ([.lane, .copy, .collective] : List Engine),
      let s := placed (fun r => { r with pre := 1, acks := if e == .lane then [] else [.lane] }) { mx := [mx0] } fun t => { t with pre := 2 };
      (s.grid 1).run.pre = 1 ∧ e ∉ (s.grid 1).run.acks ∧ s.mod_.cutState = 0 ∧ s.hasMx 1 = true ∧
      (e = .lane ∧ s.lanesStopped 1 = true ∨ (e = .copy ∨ e = .collective) ∧ .lane ∈ (s.grid 1).run.acks)) ∧
    (let s := placed (fun r => { r with pre := 1, preRun := 1 }) {} id; (s.grid 1).run.pre = 1 ∧ (s.grid 1).run.done = false ∧ (s.grid 1).run.preRun < 2 ∧ HomeOff s 1 ∧ s.bars = []) ∧
    (∀ on : Bool, let s := { placed id {} id with parts := [(0, { s0.part 0 with wdog := if on then (s0.part 0).wdog ||| 2 ^ 56 else 0 })] };
      (∀ e ∈ s.grids, (s.part (s.partOf e.2)).wdog.getLsbD 56 = true → e.2.run.hang + 1 < bits (s.part (s.partOf e.2)).wdog 32 24) ∧
      (s.part 0).wdog.getLsbD 56 = on ∧ (s.grids.map Prod.fst).Nodup) ∧
    (let s := placed (fun r => { r with hang := 9999 }) {} id;
      s.grids = [(1, s.grid 1)] ∧ (s.grid 1).edges = [] ∧ (s.grid 1).run.done = false ∧ (s.grid 1).run.progress = false ∧ (s.grid 1).run.inel = false ∧
      s.eligibleGrid 1 = true ∧ (s.part (s.partOf (s.grid 1))).wdog.getLsbD 56 = true ∧ bits (s.part (s.partOf (s.grid 1))).wdog 32 24 ≤ (s.grid 1).run.hang + 1) := by
  refine ⟨by decide +kernel, by decide +kernel, by decide +kernel, ⟨by decide +kernel, by decide +kernel, by decide +kernel,
    get_all (P := fun (c : Core) => c.line = []) rfl (by decide +kernel), get_all (P := fun (c : Core) => ∀ e ∈ c.jobs, e.2.team ≠ 1) (by simp) (by decide +kernel), by decide +kernel⟩,
    by decide +kernel, ⟨by decide +kernel, by decide +kernel, by decide +kernel, by rfl, by decide +kernel, by decide +kernel,
    get_all (P := fun (g : Group) => g.study.phase = 0) rfl (by decide +kernel)⟩, by decide +kernel, ⟨by decide +kernel, by decide +kernel, by decide +kernel, by unfold HomeOff; decide +kernel, by rfl⟩,
    by decide +kernel, by rfl, by decide +kernel⟩
/-- Job 0 of core 0 with a card and a state. -/
def job0 (op : Nat) (st : JobSt) : Job :=
  { team := 1, grid := 1, grp := 0, pc := 0, card := jobCard op, st := st, preds := [], done := [], step := 0, desc := setField (setField (zeros 64) 0 1 1) 2 2 4
    buf := [1, 2, 3, 4], px := [], serial := 1, seq := 0, stop := none, born := 0 }
/-- The test state with jobs and matrix operations on core 0. -/
def engines (js : List Job) (mx : List MxOp) : State := { s0 with cores := [(0, { jobs := tagAll 0 js, mx := mx })] }
where tagAll (n : Nat) : List Job → FMap Job
  | [] => []
  | j :: t => (n, j) :: tagAll (n + 1) t
/-- A store to a byte of the job's first range, and one beside it. -/
theorem witness_EnqEntersJobs_held : ∀ va ∈ [0x1000, 0x2000], let a : Acc := ⟨5, va, .dev va false, 4⟩
    let s := ev (one (.store [(a, [1, 2, 3, 4])])); let j := { job0 1 .waiting with card := setField (setField (zeros 128) 16 8 0x1003) 24 8 1, seq := 1 }
    (s.grp j.grp).live = true ∧ (s.grp j.grp).team = j.team ∧ (s.grp j.grp).mio.fifo = [⟨0, 0, .store [(a, [1, 2, 3, 4])], 0, 0x20, []⟩] ∧ a.va < 2 ^ 47 ∧
      (∀ o ∈ [16, 32, 48, 64], cd j.card o < 2 ^ 47) ∧ s.jobHeld j = (va == 0x1000) := by decide +kernel
theorem witness_EngineEvents :
    (let s := engines [job0 1 .ready] [];
      s.job 0 0 = some (job0 1 .ready) ∧ (job0 1 .ready).engine = .copy ∧ s.engineStopped (job0 1 .ready) = false ∧ s.jobHeld (job0 1 .ready) = false ∧
      s.takesFirst 0 0 (job0 1 .ready) = true ∧ s.copiesRun 0 < 16) ∧
    (let s := engines [job0 4 .running] []; let j := job0 4 .running;
      OneChunk s 0 0 j 64 ∧ cardByte j.card 0 = 4 ∧ OwnScratch s j 1024 64) ∧
    (let s := engines [job0 1 .running] []; let j := job0 1 .running;
      OneChunk s 0 0 j 64 ∧ cardByte j.card 0 = 1 ∧ fieldAt j.card 80 4 = 64 ∧ fieldAt j.card 84 4 = 1 ∧ OwnScratch s j 1024 64 ∧ cd j.card 16 = scrBase + 0 ∧
      0 + 64 ≤ (s.grid (s.team j.team).grid).alloc ∧ (s.team j.team).scrPx = []) ∧
    (let s := engines [job0 1 .completing, { job0 4 .waiting with preds := [0] }] []; let j := job0 1 .completing;
      s.job 0 0 = some j ∧ j.px = [] ∧ cardScope j.card < 2 ∧ (∀ k, ∀ pc cs, (s.grp k).stall ≠ some (.enq pc cs)) ∧ (s.grp 0).live = true ∧ (s.grp 0).team = j.team) ∧
    (let s := engines [job0 5 .running] []; let j := job0 5 .running;
      s.job 0 0 = some j ∧ j.engine = .collective ∧ s.engineStopped j = false ∧ s.mod2.markers = [] ∧ cd j.card 96 * collZ j.card ≤ j.buf.length ∧
      j.step + 1 < collSteps (cardByte j.card 88) j.desc) ∧
    (∀ sp, let s := { engines [] [{ mx0 with sparse := sp }] with teams := [(1, { s0.team 1 with xq := [(0, (7, 8))] })] };
      (s.mxAt 0)[0]? = some { mx0 with sparse := sp } ∧ .matrix ∉ (s.gridOf (s.grp mx0.grp)).run.acks ∧ (s.team (s.grp mx0.grp).team).scrPx = [] ∧
      mxK ⟨mx0.word.toNat⟩ / 32 ≤ ((s.team (s.grp mx0.grp).team).xqState mx0.xq).2) ∧
    (let m := { mx0 with started := true }; let s := engines [] [m];
      s.mxAt 0 = m :: [] ∧ Stays s m.grp ∧ (∀ l, ((s.grp m.grp).bar l).issued = 0) ∧ m.depth ≤ (s.grp m.grp).fdepth ∧ (s.grp m.grp).frames ≠ []) := by
  refine ⟨by decide +kernel, ⟨by unfold OneChunk; decide +kernel, by decide +kernel, by unfold OwnScratch; decide +kernel⟩,
    ⟨by unfold OneChunk; decide +kernel, by decide +kernel, by decide +kernel, by decide +kernel, by unfold OwnScratch; decide +kernel, by decide +kernel⟩,
    ⟨by decide +kernel, by decide +kernel, by decide +kernel, fun k pc cs => ?_, by decide +kernel⟩, by decide +kernel,
    fun sp => ⟨by rfl, by cases sp <;> decide +kernel, by cases sp <;> decide +kernel, by cases sp <;> decide +kernel⟩,
    by rfl, stays (by decide +kernel), fun l => by cases l <;> decide +kernel, by decide +kernel⟩
  rw [show ((engines [job0 1 .completing, { job0 4 .waiting with preds := [0] }] []).grp k).stall = none from
    get_all (P := fun (g : Group) => g.stall = none) rfl (by decide +kernel) k]
  exact nofun
/-- A request with tag 7 at region 0x100000 of space 0, and a region that holds an item of tag 7. -/
def preq (dep take : Bool) (st : Nat) : PReq :=
  { msg := { take := take, dep := dep, try_ := false, region := 0x100000, lane := 5, words := [0x100000007, 9] }, asn := 0, vf := 0, grp := 0, op := 9, st := st
    ans := if st = 3 then some [0x100000007, 9] else none }
/-- The region with some items. -/
def region0 (items : List (Nat × List W64)) : Region := { size := 786432, items := items, frames := [] }
/-- The test state with requests and items in region 0. -/
def slices (rs : FMap PReq) (items : List (Nat × List W64)) : State :=
  { with0 fun g => { g with mio := { g.mio with pans := [⟨9, 0, 0x20, [5], some 16, 0, 0, false⟩] } } with
    preqs := rs, spaces := [(0, { s0.space 0 with regions := [(0x100000, region0 items)] })] }
/-- An item of tag 7. -/
def item7 : Nat × List W64 := (0, [0x100000007, 9, 0, 0, 0, 0, 0, 0])
/-- A sleeper of the test group. -/
def sleeper (push : Bool) : WqReq := { grp := 0, push := push, off := 128, mask := BitVec.allOnes 64 }
theorem slot0 : ∀ push, ∃ as, (queued wq0).wqSlot 0 wq0 0 push = some as ∧ as.length = 64 ∧ (as.map fun (a : Acc) => a.tgt.at_ 0).Nodup ∧ hostIn as = false := by
  intro push
  have h : ∃ as, (queued wq0).wqSlot 0 wq0 0 push = some as := by
    cases hx : (queued wq0).wqSlot 0 wq0 0 push with
    | some a => exact ⟨a, rfl⟩
    | none => have : ((queued wq0).wqSlot 0 wq0 0 push).isSome = true := by cases push <;> decide +kernel
              rw [hx] at this; cases this
  obtain ⟨as, h⟩ := h
  have hl : ((queued wq0).wqSlot 0 wq0 0 push).map (fun as => (as.length, decide (as.map fun (a : Acc) => a.tgt.at_ 0).Nodup, hostIn as)) = some (64, true, false) := by
    cases push <;> decide +kernel
  rw [h] at hl
  simp only [Option.map_some, Option.some.injEq, Prod.mk.injEq, decide_eq_true_eq] at hl
  exact ⟨as, h, hl⟩
theorem witness_PantryAndWorkQueueEvents :
    (∀ take, let s := slices [(3, preq false take 0)] [item7];
      InFlight s 3 (preq false take 0) (region0 [item7]) false take ∧ FirstMatch [item7] (preq false take 0).msg.words 0 item7) ∧
    (∀ take, InFlight (slices [(3, preq false take 0)] []) 3 (preq false take 0) (region0 []) false take) ∧
    (∀ take, let s := slices [(3, preq true false 0), (4, preq false take 2)] [];
      InFlight s 3 (preq true false 0) (region0 []) true false ∧ (s.preqs.map Prod.fst).Nodup ∧
      (take = false → ∀ x ∈ s.preqs, x.2.st = 2 → x.2.msg.take = false) ∧ s.itemsFull 0 0 0x100000 (tagSlice (preq true false 0).msg.tag) = false ∧
      get? s.preqs 4 = some (preq false take 2) ∧ itemMatches (storedItem (preq true false 0).msg.words) (preq false take 2).msg.words = true ∧
      ∀ x ∈ s.preqs, x.1 ≠ 4 → x.2.st ≠ 2) ∧
    (let r := { preq false true 2 with wd := true }; get? (slices [(3, r)] []).preqs 3 = some r ∧ r.wd = true ∧ r.st ≠ 0) ∧
    (let s := slices [(3, preq true false 1), (4, preq false true 1)] [];
      s.itemsFull 0 0 0x100000 (tagSlice (preq true false 1).msg.tag) = false ∧ s.parkFull 0 (tagSlice (preq false true 1).msg.tag) = false) ∧
    (let r := preq false true 3; let s := slices [(3, r)] [];
      get? s.preqs 3 = some r ∧ r.wd = false ∧ r.ans = some [0x100000007, 9] ∧ (s.grp r.grp).mio.pans = [⟨9, 0, 0x20, [5], some 16, 0, 0, false⟩] ∧ 9 = r.op ∧
      [5] = [r.msg.lane] ∧ 0 = (s.grp r.grp).fdepth ∧ (s.grp r.grp).frames ≠ [] ∧ (s.grp r.grp).study.phase = 0) ∧
    (let q := { wq0 with tail := 1, line := [sleeper false] }; let s := queued q;
      s.wq 0 0 = some q ∧ q.line[0]? = some (sleeper false) ∧ q.head < q.tail ∧ (s.grp 0).openBefore (sleeper false).seq = false ∧ s.wqBefore 0 (sleeper false).seq = [] ∧ ∃ as, s.wqSlot 0 q q.head false = some as ∧ as.length = 64 ∧ hostIn as = false ∧ s.fwFails as = false) ∧
    (let q := { wq0 with line := [sleeper true] }; let s := queued q;
      s.wq 0 0 = some q ∧ q.line[0]? = some (sleeper true) ∧ q.tail - q.head < q.size ∧ s.wqBefore 0 (sleeper true).seq = [] ∧ (s.grp 0).acqOpen (sleeper true).seq = false ∧ s.linkHeld = false ∧
        ∃ as, s.wqSlot 0 q q.tail true = some as ∧ as.length = 64 ∧ (as.map fun (a : Acc) => a.tgt.at_ 0).Nodup) := by
  refine ⟨fun take => ⟨⟨by rfl, by rfl, by rfl, fun _ => by rfl, by rfl, by rfl⟩, by rfl, by cases take <;> decide +kernel, by omega⟩, fun take => ⟨by rfl, by rfl, by rfl, fun _ => by rfl, by rfl, by rfl⟩,
    fun take => ⟨⟨by rfl, by rfl, by rfl, fun h => (by cases h), by rfl, by rfl⟩, by cases take <;> decide, ?_, by cases take <;> decide +kernel, by rfl, by cases take <;> decide +kernel, by cases take <;> decide +kernel⟩,
    by decide +kernel, by decide +kernel, by decide +kernel, ⟨by rfl, by rfl, by decide, by rfl, by decide +kernel, ?_⟩, by rfl, by rfl, by decide, by decide +kernel, by decide +kernel, by decide +kernel, ?_⟩
  · rintro rfl; decide +kernel
  · obtain ⟨as, h, hl, _, hf⟩ := slot0 false; exact ⟨as, h, hl, hf, by rw [State.fwFails, hf]; rfl⟩
  · obtain ⟨as, h, hl, hn, _⟩ := slot0 true; exact ⟨as, h, hl, hn⟩
/-- Sixty-four bytes with some fields: offset, width, value. -/
def fields (n : Nat) (l : List (Nat × Nat × Nat)) : List Byte := l.foldl (fun b x => setField b x.1 x.2.1 x.2.2) (zeros n)
/-- A state with one fetched command in queue 0 of a VF, of a control block that gives 16 slots at 0x50000. -/
def withCmd (s : State) (vf : Nat) (c : Cmd) : State :=
  s.setQueue vf 0 { cb := { base := 0x50000, size := 16, exsize := 16, exbase := 0x60000, head := 1, tail := 1, enabled := true }, cmds := [(0, c)] }
/-- The test state with bytes at 0x8000 and 0x9000, free frames on every die, work queue 0, a pantry region at 0x200000, and a parked, studied or stopped group as given. -/
def host0 (f : Group → Group) (a b : List Byte) : State :=
  let s := with0 f
  ({ s with mem := { s.mem with dev := (s.mem.dev.writeN 0x8000 a).writeN 0x9000 b }
            mod2 := { s.mod2 with free := [(0x4000, 0x4007), (0x180000, 0x180001), (0x300000, 0x300003), (0x600000, 0x600003)] }
            spaces := [(0, { s.space 0 with regions := [(0x200000, region0 [])] })] }.setVf 0 { s.vf 0 with nextGrid := 2 }).setWq 0 0 wq0
/-- Whether a state, a VF and a command meet what `Starts` says. -/
def startsB (s : State) (vf : Nat) (b : List Byte) : Bool :=
  s.queueRuns vf 0 && (s.queue vf 0).nextCmd == some (0, { bytes := b }) && get? (s.queue vf 0).cmds 0 == some { bytes := b } && (s.queue vf 0).cb.done == 0 &&
    s.hasTurn vf 0 && s.cmdBad vf b == none
theorem starts {s : State} {vf : Nat} {b : List Byte} (h : startsB s vf b = true) : Starts s vf 0 0 b := by
  simp only [startsB, Bool.and_eq_true, beq_iff_eq] at h
  exact ⟨h.1.1.1.1.1, h.1.1.1.1.2, h.1.1.1.2, fun _ => h.1.1.2, h.1.2, h.2⟩
/-- The test state with one command. -/
def cmdS (vf : Nat) (b : List Byte) : State := withCmd (host0 id [] []) vf { bytes := b }
/-- One command of every kind that needs nothing of its own: VF and bytes. -/
def cmdList : List (Nat × List Byte) :=
  [(0, fields 64 [(0, 1, 4), (8, 8, 0x1000), (16, 8, 0x2000), (24, 8, 0x100)]), (0, fields 64 [(0, 1, 7)]),
   (128, fields 64 [(0, 1, 8), (9, 1, 1), (12, 4, 3), (16, 8, 1), (24, 8, 5)]), (128, fields 64 [(0, 1, 8), (9, 1, 8), (12, 4, 207), (16, 8, 0x8000000000000), (24, 8, 5)]),
   (128, fields 64 [(0, 1, 8), (9, 1, 1), (16, 8, 1), (24, 8, 5)]), (128, fields 64 [(0, 1, 8), (9, 1, 2), (12, 4, 9), (16, 8, 0x1000000000000), (24, 8, 0x10000)]),
   (128, fields 64 [(0, 1, 8), (9, 1, 2), (12, 4, 12), (16, 8, 0x1000000000000), (24, 8, 7)]),
   (0, fields 64 [(0, 1, 8), (8, 1, 1), (12, 4, 1)]), (0, fields 64 [(0, 1, 8), (8, 1, 2), (12, 4, 1)]), (0, fields 64 [(0, 1, 8), (8, 1, 3), (12, 4, 1)]),
   (0, fields 64 [(0, 1, 9)]), (0, fields 64 [(0, 1, 10)]), (0, fields 64 [(0, 1, 11), (8, 1, 0), (16, 8, 0x22000)]),
   (0, fields 64 [(0, 1, 11), (8, 1, 1), (16, 8, 0x10000), (24, 4, 16)]), (0, fields 64 [(0, 1, 11), (8, 1, 2), (16, 8, 0x10000), (24, 4, 4096)]),
   (128, fields 64 [(0, 1, 11), (8, 1, 3), (9, 1, 127), (10, 1, 7)]), (128, fields 64 [(0, 1, 11), (8, 1, 4), (9, 1, 15), (24, 4, 100000)]),
   (128, fields 64 [(0, 1, 11), (8, 1, 5), (9, 1, 5), (12, 4, 127), (16, 8, 0x30000)]), (128, fields 64 [(0, 1, 11), (8, 1, 6), (9, 1, 5), (10, 1, 15)]),
   (0, fields 64 [(0, 1, 11), (8, 1, 8), (16, 8, 0x200000)]),
   (0, fields 64 [(0, 1, 12), (8, 1, 63), (12, 4, 65536), (16, 8, 0x4000)]), (0, fields 64 [(0, 1, 12), (8, 1, 0), (9, 1, 1)])]
theorem witness_CommandEvents_start : ∀ x ∈ cmdList, Starts (cmdS x.1 x.2) x.1 0 0 x.2 :=
  fun x hx => starts (List.all_eq_true.mp (show cmdList.all (fun x => startsB (cmdS x.1 x.2) x.1 x.2) = true by decide +kernel) x hx)
/-- A command of each refused kind with a byte that must be 0. -/
theorem witness_CommandEvents_refuse : ∀ op ∈ [1, 2, 4, 5, 6, 7, 9, 10, 11], let b := fields 64 [(0, 1, op), (2, 1, 1)]; let s := cmdS 0 b;
    s.queueRuns 0 0 = true ∧ (s.queue 0 0).nextCmd = some (0, { bytes := b }) ∧ cardByte b 0 = op ∧ cardByte b 8 = 0 ∧ (s.queue 0 0).cb.done = 0 ∧ s.hasTurn 0 0 = true ∧ s.cmdBad 0 b = some 2 := by
  decide +kernel
/-- LAUNCH and RELAUNCH of the card at 0x8000; APPEND, SIGNAL and WAIT at 0x9000; the pantry allocation of one unit. -/
def launchB : List Byte := fields 64 [(0, 1, 1), (8, 8, 0x8000)]
def relaunchB : List Byte := fields 64 [(0, 1, 2), (8, 8, 0x8000)]
def appendB : List Byte := fields 64 [(0, 1, 3), (12, 4, 1), (16, 8, 0x9000)]
def signalB : List Byte := fields 64 [(0, 1, 5), (8, 8, 0x9000), (16, 8, 7)]
def waitB : List Byte := fields 64 [(0, 1, 6), (8, 8, 0x9000), (16, 8, 7)]
def pantryB : List Byte := fields 64 [(0, 1, 11), (8, 1, 7), (16, 8, 0x40000000), (24, 4, 1)]
/-- Whether the answer to a card accepts it. -/
def accepts : Answer → Bool
  | .ok _ _ => true
  | _ => false
theorem accepts_ok {a : Answer} (h : accepts a = true) : ∃ s k, a = .ok s k := by cases a with | ok s k => exact ⟨s, k, rfl⟩ | _ => cases h
theorem isOk_ok {α : Type} {a : Except Nat α} (h : a.isOk = true) : ∃ x, a = .ok x := by cases a with | ok x => exact ⟨x, rfl⟩ | error e => cases h
theorem isSome_some {α : Type} {a : Option α} (h : a.isSome = true) : ∃ x, a = some x := by cases a with | some x => exact ⟨x, rfl⟩ | none => cases h
/-- A group that answers: parked by `trap 17` in slot 0 with serial 7, and the record written. -/
def asks (g : Group) : Group := let g := parked (.trap 17) g; { g with park := g.park.map fun p => { p with sent := true } }
/-- The same, parked by a fault. -/
def asks1 (g : Group) : Group := let g := parked .fault g; { g with park := g.park.map fun p => { p with sent := true } }
theorem gotAnd {α β : Type} {p : Option α × β} {a : α} {P : β → Prop} (h : p.1 = some a) (hp : P p.2) : ∃ u, p = (some a, u) ∧ P u := ⟨p.2, Prod.ext h rfl, hp⟩
/-- RELAUNCH with a card at 0x8000 that names the attic at 0x9000. -/
def relaunchCard : List Byte := fields 64 [(0, 1, 2), (8, 8, 0x9000)]
def relaunching : State := withCmd (host0 id relaunchCard (fields 1024 [(644, 1, 1), (1, 1, 2)])) 0 { bytes := relaunchB }
def launching0 : State := withCmd (host0 id launchCard []) 0 { bytes := launchB }
theorem witness_CommandEvents_launch : ∃ u, (launching0.takeTurn 0 0).fwGet (launching0.writerDie 0 0) 0 0 (fieldAt launchB 8 8) 256 = (some launchCard, u) ∧ Acceptable u 0 0 launchCard (some 0) :=
  gotAnd (by decide +kernel) (acceptable (by decide +kernel) (by decide +kernel) (by decide +kernel))
theorem witness_CommandEvents_relaunch : ∃ w, (relaunching.takeTurn 0 0).fwGet (relaunching.writerDie 0 0) 0 0 (fieldAt relaunchB 8 8) 64 = (some relaunchCard, w) ∧
    ∃ u k, w.acceptRl 0 relaunchCard 0 (some 0) = .ok u k := by
  refine gotAnd (P := fun w : State => ∃ u k, w.acceptRl 0 relaunchCard 0 (some 0) = .ok u k) ?_ (accepts_ok ?_) <;> decide +kernel
theorem witness_CommandEvents_grids :
    (Starts launching0 0 0 0 launchB ∧ launching0.fwHeld (launching0.asnOf 0) false (fieldAt launchB 8 8) 256 = false) ∧
    Starts relaunching 0 0 0 relaunchB ∧ relaunching.fwHeld (relaunching.asnOf 0) false (fieldAt relaunchB 8 8) 64 = false :=
  ⟨⟨starts (by decide +kernel), by decide +kernel⟩, starts (by decide +kernel), by decide +kernel⟩
theorem got {α β : Type} {p : Option α × β} (h : p.1.isSome = true) : ∃ a b, p = (some a, b) := by obtain ⟨a, h⟩ := isSome_some h; exact ⟨a, p.2, Prod.ext h rfl⟩
/-- APPEND of two records at 0x9000, and COPY of one byte from 0x1000 to 0x2000. -/
def append2B : List Byte := setField appendB 12 4 2
def copy1B : List Byte := fields 64 [(0, 1, 4), (8, 8, 0x1000), (16, 8, 0x2000), (24, 8, 1)]
/-- The APPEND of two records has appended one; the work queue has so many. -/
def appending1 (tail : Nat) : State := (withCmd (host0 id [] []) 0 { bytes := append2B, started := true, by_ := 0, step := 1 }).setWq 0 0 { wq0 with tail := tail }
theorem witness_CommandEvents_append :
    (let s := cmdS 0 appendB;
      Starts s 0 0 0 appendB ∧ fieldAt appendB 12 4 = 1 ∧ (s.queue 0 0).appending = none ∧ (∃ as, s.fwBytes (s.asnOf 0) false (fieldAt appendB 16 8) 64 = .ok as) ∧
      s.wq 0 (cardByte appendB 8) = some wq0 ∧ wq0.tail - wq0.head < wq0.size ∧ wq0.line = [] ∧
      (∃ as, s.fwBytes (s.asnOf 0) true (wq0.base + 64 * (wq0.tail % wq0.size)) 64 = .ok as) ∧ (∃ as, (Begun s 0 0 0 0).fwBytes (s.asnOf 0) false (fieldAt appendB 16 8) 64 = .ok as) ∧
      (∃ as, (Begun s 0 0 0 0).fwBytes (s.asnOf 0) true (wq0.base + 64 * (wq0.tail % wq0.size)) 64 = .ok as) ∧ (Begun s 0 0 0 0).linkHeld = false) ∧
    (let k := { wq0 with tail := 15 }; let s := (cmdS 0 append2B).setWq 0 0 k;
      Starts s 0 0 0 append2B ∧ 2 ≤ fieldAt append2B 12 4 ∧ (s.queue 0 0).appending = none ∧ (∃ as, s.fwBytes (s.asnOf 0) false (fieldAt append2B 16 8) (64 * fieldAt append2B 12 4) = .ok as) ∧
      s.wq 0 (cardByte append2B 8) = some k ∧ k.tail - k.head + 1 = k.size ∧ s.slotsBad (s.asnOf 0) k (fieldAt append2B 12 4) = none ∧
      (∃ as, (Begun s 0 0 0 0).fwBytes (s.asnOf 0) false (fieldAt append2B 16 8) 64 = .ok as) ∧
      (∃ as, (Begun s 0 0 0 0).fwBytes (s.asnOf 0) true (k.base + 64 * (k.tail % k.size)) 64 = .ok as) ∧ (Begun s 0 0 0 0).linkHeld = false) ∧
    (let c : Cmd := { bytes := append2B, started := true, by_ := 0, step := 1 };
      (∀ tail ∈ [1, 16], let s := appending1 tail;
        (s.queue 0 0).appending = some (0, c) ∧ get? (s.queue 0 0).cmds 0 = some c ∧ s.fwGoesOn 0 0 c = true ∧ s.wq 0 (cardByte c.bytes 8) = some { wq0 with tail := tail }) ∧
      fieldAt c.bytes 12 4 = c.step + 1 ∧ wq0.size ≤ 16 - wq0.head ∧ 1 - wq0.head < wq0.size ∧ (appending1 1).linkHeld = false ∧
      (∃ as, (appending1 1).fwBytes ((appending1 1).asnOf 0) false (fieldAt c.bytes 16 8 + 64 * c.step) 64 = .ok as) ∧
      ∃ as, (appending1 1).fwBytes ((appending1 1).asnOf 0) true (wq0.base + 64 * (1 % wq0.size)) 64 = .ok as) := by
  refine ⟨⟨starts (by decide +kernel), by decide, by decide +kernel, isOk_ok (by decide +kernel), by decide +kernel, by decide, by rfl, isOk_ok (by decide +kernel), isOk_ok (by decide +kernel),
    isOk_ok (by decide +kernel), by decide +kernel⟩, ⟨starts (by decide +kernel), by decide, by decide +kernel, isOk_ok (by decide +kernel), by decide +kernel, by decide, by decide +kernel,
    isOk_ok (by decide +kernel), isOk_ok (by decide +kernel), by decide +kernel⟩, by decide +kernel, by decide, by decide, by decide, by decide +kernel, isOk_ok (by decide +kernel),
    isOk_ok (by decide +kernel)⟩
theorem witness_CommandEvents_memory :
    (let c : Cmd := { bytes := fields 64 [(0, 1, 4), (8, 8, 0x1000), (16, 8, 0x2000), (24, 8, 0x100)], started := true }; let s := withCmd s0 128 c;
      (s.queue 128 0).cmds.find? (fun e => e.2.started && e.2.status.isNone && !e.2.refused && cardByte e.2.bytes 0 == 4) = some (0, c) ∧
      0x1000 = fieldAt c.bytes 8 8 ∧ 0x2000 = fieldAt c.bytes 16 8 ∧ 0x100 = fieldAt c.bytes 24 8 ∧ s.fwGoesOn 128 0 c = true) ∧
    (let c : Cmd := { bytes := copy1B, started := true }; let s := withCmd s0 0 c;
      (s.queue 0 0).cmds.find? (fun e => e.2.started && e.2.status.isNone && !e.2.refused && cardByte e.2.bytes 0 == 4) = some (0, c) ∧
      s.fwGoesOn 0 0 c = true ∧ fieldAt c.bytes 24 8 = 1 ∧ s.linkHeld = false ∧
      ∃ a d, s.fwBytes (s.asnOf 0) false (fieldAt c.bytes 8 8) 1 = .ok [a] ∧ s.fwBytes (s.asnOf 0) true (fieldAt c.bytes 16 8) 1 = .ok [d] ∧ hostIn [a] = false) ∧
    (let s := cmdS 0 signalB; Starts s 0 0 0 signalB ∧ ∃ as, s.fwBytes (s.asnOf 0) true (fieldAt signalB 8 8) 8 = .ok as) ∧
    (let s := cmdS 0 waitB;
      Starts s 0 0 0 waitB ∧ (∃ as, s.fwBytes (s.asnOf 0) false (fieldAt waitB 8 8) 8 = .ok as) ∧ (Begun s 0 0 0 0).fwHeld (s.asnOf 0) false (fieldAt waitB 8 8) 8 = false ∧
      ∃ w u, (Begun s 0 0 0 0).fwGet (s.writerDie 0 0) 0 0 (fieldAt waitB 8 8) 8 = (some w, u)) ∧
    (let c : Cmd := { bytes := waitB, started := true }; let s := withCmd s0 0 c;
      s.fwGoesOn 0 0 c = true ∧ (s.queue 0 0).cmds.find? (fun e => e.2.started && e.2.status.isNone && !e.2.refused && cardByte e.2.bytes 0 == 6) = some (0, c) ∧
      s.fwHeld (s.asnOf 0) false (fieldAt c.bytes 8 8) 8 = false ∧ ∃ w u, s.fwGet c.by_ 0 0 (fieldAt c.bytes 8 8) 8 = (some w, u)) ∧
    (let c : Cmd := { bytes := fields 64 [(0, 1, 6), (8, 8, 0x40000000)], started := true }; let s := withCmd s0 0 c;
      s.fwGoesOn 0 0 c = true ∧ (s.queue 0 0).cmds.find? (fun e => e.2.started && e.2.status.isNone && !e.2.refused && cardByte e.2.bytes 0 == 6) = some (0, c) ∧
      s.fwBytes (s.asnOf 0) false (fieldAt c.bytes 8 8) 8 = .error 0x40000000) ∧
    (let b := fields 64 [(0, 1, 5), (8, 8, 0x40000000)]; let s := cmdS 0 b; Starts s 0 0 0 b ∧ s.fwBytes (s.asnOf 0) true (fieldAt b 8 8) 8 = .error 0x40000000) ∧
    (s0.asnOf 0 = some 0 ∧ ∃ u, ((cmdS 0 pantryB).takeTurn 0 0).pantryAlloc 0 (fieldAt pantryB 16 8) (fieldAt pantryB 24 4) = .ok u) ∧ Starts (cmdS 0 pantryB) 0 0 0 pantryB := by
  refine ⟨by decide +kernel, ⟨by decide +kernel, by decide +kernel, by decide, by decide +kernel, ⟨0, 0x1000, .dev 0x1000 false, 1⟩, ⟨0, 0x2000, .dev 0x2000 false, 1⟩, by rfl, by rfl, by rfl⟩,
    ⟨starts (by decide +kernel), isOk_ok (by decide +kernel)⟩, ⟨starts (by decide +kernel), isOk_ok (by decide +kernel), by decide +kernel, got (by decide +kernel)⟩,
    ⟨by decide +kernel, by decide +kernel, by decide +kernel, got (by decide +kernel)⟩, by decide +kernel, ⟨starts (by decide +kernel), by rfl⟩,
    ⟨by decide +kernel, isOk_ok (by decide +kernel)⟩, starts (by decide +kernel)⟩
theorem witness_CommandEvents_groups : let b (op : Nat) := fields 64 [(0, 1, 8), (8, 1, op), (12, 4, 1)]
    (let s := cmdS 0 (b 1); s.namedGroup 0 (b 1) = some 0 ∧ (s.grp 0).study.mark = none ∧ (s.grp 0).study.phase = 0) ∧
    (let s := withCmd (host0 (fun g => { g with study := { g.study with phase := 4 } }) [] []) 0 { bytes := b 1 };
      s.namedGroup 0 (b 1) = some 0 ∧ (s.grp 0).study.mark = none ∧ (s.grp 0).study.phase = 4) ∧
    (∀ w ∈ [[], [(Wait.stop, BitVec.allOnes 64)]],
      let s := withCmd (host0 (fun g => { g with study := { g.study with phase := 2 }, lanes := { g.lanes with waits := w } }) [] []) 0 { bytes := b 2 };
      s.namedGroup 0 (b 2) = some 0 ∧ (s.grp 0).study.phase = 2 ∧ (s.grp 0).study.due = none ∧ ((s.grp 0).waitMask (· == .stop) = 0 ↔ w = [])) ∧
    (let a := fields 64 [(0, 1, 10), (12, 2, 7)]; let s := withCmd (host0 asks [] []) 0 { bytes := a };
      Starts s 0 0 0 a ∧ s.groups.find? (fun e => e.2.live && (s.grid e.2.grid).vf == 0 && e.2.park.elim false fun p =>
        p.sent && p.ans.isNone && p.loc == (cardByte a 8 * 64 + cardByte a 9) * 128 + cardByte a 10 && p.serial == fieldAt a 12 2) = some (0, s.grp 0) ∧
      (∃ p, (s.grp 0).park = some p ∧ p.takes (cardByte a 11) = true ∧ p.depth = (s.grp 0).fdepth) ∧ (s.grp 0).frames ≠ []) ∧
    (Stays (host0 asks1 [] []) 0 ∧ (∃ p, (asks1 fetchGroup).park = some p ∧ p.cls = 1 ∧ p.stays = false) ∧
      ∃ p, (parked (.escal 0x0E03) fetchGroup).park = some p ∧ p.stays = true) ∧
    (let a := fields 64 [(0, 1, 10)]; let s := cmdS 0 a; Starts s 0 0 0 a ∧ (∀ e ∈ s.groups, e.2.park = none) ∧ ∀ e ∈ s.teams, e.2.savedGroups = []) ∧
    (let s := cmdS 0 (b 1); get? (s.queue 0 0).cmds 0 = some { bytes := b 1 } ∧ ({ bytes := b 1 } : Cmd).status = none ∧ (s.queue 0 0).cb.done = 0 ∧ get? (s.queue 0 0).cmds 1 = none ∧
      (s.queue 0 0).cb.tail ≤ (s.queue 0 0).cb.head) := by
  refine ⟨by decide +kernel, by decide +kernel, by decide +kernel, ⟨starts (by decide +kernel), by decide +kernel, ⟨_, by rfl, by decide +kernel⟩, by decide +kernel⟩, ⟨stays (by decide +kernel), ⟨_, by rfl, by rfl, by rfl⟩, ⟨_, by rfl, by rfl⟩⟩,
    ⟨starts (by decide +kernel), by decide +kernel⟩, by decide +kernel⟩
/-- A queue control block (R364) for 16 slots at 0x50000. -/
def block0 : List Byte := fields 64 [(0, 8, 0x50000), (8, 4, 65536), (12, 4, 4096), (16, 8, 0x60000)]
/-- A stopped queue with a refused command. -/
def refused0 : State :=
  s0.setQueue 0 0 { cb := { base := 0x50000, size := 16, head := 1, tail := 1, enabled := true, stopped := true }, cmds := [(0, { bytes := waitB, refused := true })] }
/-- The module without grids. -/
def empty0 : State := { s0 with groups := [], teams := [], grids := [] }
theorem bytes_nodup {s : State} {w : Bool} {va n : Nat} (h : ((s.fwBytes (some 0) w va n).toOption.map fun as => decide (as.map fun (a : Acc) => a.tgt.at_ 0).Nodup) = some true) :
    ∃ as, s.fwBytes (some 0) w va n = .ok as ∧ (as.map fun (a : Acc) => a.tgt.at_ 0).Nodup := by
  cases hx : s.fwBytes (some 0) w va n with
  | error e => rw [hx] at h; cases h
  | ok as => rw [hx] at h; exact ⟨as, rfl, by simpa [Except.toOption] using h⟩
theorem witness_RegisterEvents :
    (let s := cmdS 0 waitB; s.mmio = true ∧ s.fwServes 0 0 = true ∧ (s.queue 0 0).cb.enabled = true ∧ (s.queue 0 0).cb.tail ≤ (16 : W64).toNat ∧
      (16 : W64).toNat ≤ (s.queue 0 0).cb.done + (s.queue 0 0).cb.size) ∧
    (let s := { s0 with dies := [(0, { inService := true, fw := 1 })] }; s.mmio = true ∧ s.fwServes 0 0 = false) ∧
    (s0.mmio = true ∧ (s0.queue 128 15).cb.enabled = false ∧ (s0.queue 128 15).held = []) ∧
    (let s := host0 id block0 []; s.mmio = true ∧ (s.queue 0 15).cb.enabled = false ∧ s.fwRead (s.asnOf 0) (0x8000 : W64).toNat 64 = some block0 ∧ (s.queue 0 15).held = [] ∧
      (Qcb.ofBytes block0).base % 64 = 0 ∧ (Qcb.ofBytes block0).exbase % 64 = 0 ∧ (Qcb.ofBytes block0).size = 2 ^ 16 ∧ (Qcb.ofBytes block0).exsize = 2 ^ 12 ∧
      (Qcb.ofBytes block0).tail ≤ (Qcb.ofBytes block0).done) ∧
    ((s0.vf 0).svc.held = [] ∧ (s0.vf 127).err.held = [] ∧ s0.mod2.pfErr.held = []) ∧
    (let s := refused0; s.mmio = true ∧ (s.queue 0 0).held = [] ∧ (s.queue 0 0).cb.exprod < 2 ^ 32 ∧ (s.queue 0 0).cb.stopped = true ∧
      (s.queue 0 0).refusedCmd = some (0, { bytes := waitB, refused := true }) ∧
      (∃ bs w, ((s.tellServer 0 0).setQueue 0 0 { s.queue 0 0 with ack := max (s.queue 0 0).ack (0 : W32).toNat }).fwGet (s.writerDie 0 0) 0 0 ((s.queue 0 0).slotAddr 0) 64 = (some bs, w)) ∧
      (s.queue 0 0).cb.tail = 0 + 1 ∧ (s.queue 0 0).cb.done = 0 ∧ get? (s.queue 0 0).cmds 0 = some { bytes := waitB, refused := true } ∧ get? (s.queue 0 0).cmds (0 + 1) = none) ∧
    (s0.queue 0 0).cb.stopped = false ∧
    (empty0.mmio = true ∧ empty0.mod_.cutState = 0 ∧ empty0.grids = [] ∧ empty0.teams = [] ∧ (∀ m ∈ empty0.mod2.markers, m.2 ≠ 7)) ∧
    ((∀ lo ∈ [0, 10, 20, 30], bits (0x18020080200 : W64) lo 5 + bits (0x18020080200 : W64) (lo + 5) 5 ≤ 16) ∧ ∀ e ∈ empty0.parts, e.1 = 0) ∧
    (∀ e ∈ ({ empty0 with vfs := [] } : State).vfs, e.2.part = 0 → e.2.asn = none) ∧
    (let s := { empty0 with mod_ := { s0.mod_ with cutState := 2 } }; s.mmio = true ∧ s.mod_.cutState = 2 ∧ s.grids = []) ∧
    (∃ as, s0.fwBytes (some 0) true (0x8000 : W64).toNat 8 = .ok as ∧ (as.map fun (a : Acc) => a.tgt.at_ 0).Nodup) ∧
    (∃ as, s0.fwBytes (some 0) false (0x8000 : W64).toNat 8 = .ok as ∧ (as.map fun (a : Acc) => a.tgt.at_ 0).Nodup) ∧ s0.asnOf 0 = some 0 ∧
    (s0.linkUp = true ∧ s0.fwBytes (s0.asnOf 0) false (0x40000000 : W64).toNat 8 = .error 0x40000000 ∧ (s0.vf 0).err.set = false) := by
  refine ⟨by decide +kernel, by decide +kernel, by decide +kernel, by decide +kernel, by decide +kernel,
    ⟨by decide +kernel, by decide +kernel, by decide +kernel, by decide +kernel, by decide +kernel, got (by decide +kernel), by decide +kernel⟩, by decide +kernel,
    by decide +kernel, by decide +kernel, by decide, by decide +kernel, bytes_nodup (by decide +kernel), bytes_nodup (by decide +kernel), by decide +kernel, by decide +kernel, by rfl, by decide +kernel⟩
/-- The module in a stage of its start, and its link as given. -/
def module0 (stage : Nat) (verified : Bool) (l : Link) : State := { State.reset with mod_ := { State.reset.mod_ with stage := stage, verified := verified, link := l } }
theorem witness_RegisterEvents_link :
    (s0.mod_.link.state ≠ 3 ∧ s0.mod_.link.keys.1 = true ∧ s0.mod_.link.tagFails < 2 ∧ s0.mod_.link.held = 0 ∧ (1 : Nat) ≠ s0.mod_.link.expect) ∧ (2 ≤ (module0 2 true { tagFails := 2 }).mod_.link.tagFails) ∧
    (let l := (module0 2 true { buffer := [(0, false)], sent := 1, fails := (0, 7), roll := some 0 }).mod_.link;
      l.state ≠ 3 ∧ (∃ k, (0, k) ∈ l.buffer) ∧ 8 ≤ l.fails.2 + 1 ∧ l.fails.1 = 0 ∧ 0 < l.sent ∧ l.roll = some 0 ∧ l.state < 2 ∧ l.buffer ≠ [] ∧ l.keypend = false ∧ l.buffer.length < 128) ∧
    (let l := (module0 2 true { sent := 130, held := 3 }).mod_.link; l.state = 0 ∧ 0 < l.sent) ∧
    ((module0 2 true { state := 2 }).mod_.link.state = 2 ∧ (module0 2 true { state := 2 }).mod_.link.held = 0 ∧ (module0 2 true { state := 2 }).vfs = [] ∧
      (module0 2 true { state := 2 }).mod2.pfErr.held = []) ∧
    (let s := { s0 with mod2 := { s0.mod2 with ports := [17] } }; 17 ∈ s.mod2.ports ∧ (17, 7) ∉ s.mod2.markers ∧ s.mod_.cutState = 0) ∧
    (let s := { empty0 with mod_ := { s0.mod_ with cutState := 1, cutId := 7 }, mod2 := { s0.mod2 with ports := [17] } };
      s.mod_.cutState = 1 ∧ s.mod_.cutId = 7 ∧ s.grids = [] ∧ s.mod2.ports = [17] ∧ s.mod2.markers = []) := by
  refine ⟨by decide +kernel, by decide +kernel, ⟨by decide, ⟨_, List.mem_singleton.mpr rfl⟩, by decide⟩, by decide, by decide, by decide +kernel, by decide +kernel⟩
/-- A queue whose block at 0x8000 has an odd sequence word, and whose shadow is damaged. -/
def oddBlock : List Byte := fields 64 [(0, 8, 0x50000), (8, 4, 16), (12, 4, 16), (16, 8, 0x60000), (40, 4, 3), (44, 1, 1)]
def repairing : State := (host0 id oddBlock []).setQueue 0 0 { addr := 0x8000, cb := Qcb.ofBytes oddBlock, shadowPx := true }
theorem witness_ModuleEvents :
    ({ s0.mod_ with powered := false } : Module).powered = false ∧
    (∀ image ∈ [[], [1]], let m := { State.reset.mod_ with nv := { State.reset.mod_.nv with newImage := image } }; m.stage = 0 ∧ m.verified = false ∧ m.nv.newImage = image) ∧
    (let m := (module0 0 true {}).mod_; m.stage = 0 ∧ m.verified = true ∧ m.nv.retired = [] ∧ m.dieOff = 0) ∧
    (let m := (module0 1 true {}).mod_; m.stage = 1 ∧ m.nv.retired = [] ∧ m.dieOff.getLsbD 3 = false) ∧ (module0 15 true {}).mod_.stage = 15 ∧
    (0x47FFFFFFF * 32 < 0x9000000000 ∧ 0x47FFFFFFF ∉ s0.mem.devPx ∧ (s0.mod_.nv.retired.filter fun r => r.1 == stackOf (0x47FFFFFFF * 32)).length < 4096 ∧
      s0.mappers false (0x47FFFFFFF * 32) = [] ∧ s0.tableOwner (0x47FFFFFFF / 2048) = none ∧ s0.shelfFrame (0x47FFFFFFF / 2048) = false) ∧
    (0 ∉ s0.mem.devPx ∧ 0 ∉ s0.mem.found ∧ s0.mappers false (0 * 32) = [(0, 0, 0xF)] ∧ s0.pantriesOf 0 = [] ∧ s0.linkUp = true ∧ (s0.vf 0).err.set = false) ∧
    ((s0.grp 0).live = true ∧ (s0.grp 0).frames ≠ [] ∧ 59 < (s0.grp 0).top.nv) ∧
    (get? (slices [(3, preq false true 2)] []).preqs 3 = some (preq false true 2) ∧ (preq false true 2).st = 2) ∧
    (let s := { s0 with teams := put s0.teams 1 { s0.team 1 with live := true, guard := { (s0.team 1).guard with undo := [(0, [], 0x1000, false)] } } };
      (s.team 1).live = true ∧ (s.team 1).guard.undo[0]? = some (0, [], 0x1000, false)) ∧
    (s0.grids = [(1, s0.grid 1)] ∧ (s0.grid 1).edges = [] ∧ (s0.grid 1).run.done = false ∧ (s0.grid 1).vf < 128 ∧ (s0.vf (s0.grid 1).vf).contained = false) ∧
    ((∀ v ∈ s0.damageVfs (.row 0 0 0 0), (s0.vf v).c0 = false) ∧ ((s0.setVf 0 { s0.vf 0 with contained := true }).vf 0).contained = true ∧
      ((s0.setDie 1 { s0.die 1 with online := false }).die 1).online = false ∧ (s0.die 1).online = true) ∧
    (get? (repairing.vf 0).queues 0 = some (repairing.queue 0 0) ∧ (repairing.queue 0 0).cb.enabled = true ∧ (repairing.queue 0 0).shadowPx = true ∧
      ∃ bs w, repairing.fwGet (repairing.writerDie 0 0) 0 0 (repairing.queue 0 0).addr.toNat 64 = (some bs, w) ∧ (Qcb.ofBytes bs).seq.getLsbD 0 = true) ∧
    7 ∈ ({ s0.mod2 with wiping := [7] } : Module2).wiping ∧
    ((s0.die 3).inService = true ∧ (s0.die 3).fw ≠ 2 ∧ ∃ d, d < 4 ∧ d ≠ 3 ∧ (s0.die d).inService = true ∧ (s0.die d).fw ≠ 2) ∧
    (let s := { s0 with dies := [(0, { inService := true }), (1, { inService := true, fw := 2 })] };
      s.mod_.stage = 2 ∧ (s.die 0).inService = true ∧ (s.die 0).fw ≠ 2 ∧ ∀ d, d < 4 → d ≠ 0 → (s.die d).inService = true → (s.die d).fw = 2) ∧
    (let s := { s0 with dies := [(0, { inService := true, fw := 1 })] }; (s.die 0).fw = 1 ∧ ({ s with vfs := [] } : State).vfs = []) := by
  refine ⟨by decide, by decide, by decide, by decide,
    by decide, by decide +kernel, by decide +kernel, by decide +kernel, by decide +kernel, by decide +kernel, ⟨by rfl, by decide +kernel⟩, by decide +kernel, ⟨by rfl, by decide +kernel, by decide +kernel, ?_⟩,
    by decide, ⟨by decide +kernel, by decide +kernel, ⟨0, by decide +kernel⟩⟩, by decide +kernel, by decide +kernel⟩
  obtain ⟨w, h, _⟩ := gotAnd (P := fun _ => True) (p := repairing.fwGet (repairing.writerDie 0 0) 0 0 (repairing.queue 0 0).addr.toNat 64) (a := oddBlock) (by decide +kernel) trivial
  exact ⟨oddBlock, w, h, by decide +kernel⟩
/-- The page at address 0 is in host memory, and the link retrains. -/
def hostCode : State := { s0 with mem := { s0.mem with dev := s0.mem.dev.writeN 0x21000 (leBytes 8 0x1F) }, mod_ := { s0.mod_ with link := { state := 2 } } }
/-- An instruction of the issue, an illegal word, a fetch that fails, no group that can issue; an agenda; and no power. -/
theorem witness_StepRunsDecoded :
    (let s := s0.withFetchWord 32 0x3E0C2803;
      s.mod_.powered = true ∧ s.agenda = [] ∧ s.ctx = some c0 ∧ s.fetchHeld c0 = false ∧ s.fetch c0 = .ok (0x3E0C2803, 4) ∧
      decode 0x3E0C2803 = .ok (.add ⟨.w32, .slot 2, .row 3, false, 5, none⟩) ∧ ({ s with agenda := [], cur := 0 } : State).ctx = some c0) ∧
    (let s := s0.withFetchWord 32 1; s.ctx = some c0 ∧ s.fetchHeld c0 = false ∧ s.fetch c0 = .ok (1, 4) ∧ decode 1 = .bad 0x0101) ∧
    (let s := with0 lost; s.ctx = some (ctx1 lost) ∧ s.fetchHeld (ctx1 lost) = false ∧ s.fetch (ctx1 lost) = .error (0x0609, 0)) ∧
    (hostCode.mod_.powered = true ∧ hostCode.agenda = [] ∧ hostCode.ctx = some c0 ∧ hostCode.fetchHeld c0 = true) ∧
    ((∀ e ∈ s0.groups, (s0.grp e.1).eligible = 0 ∨ (s0.grp e.1).study.phase ≠ 2 ∧ (s0.grp e.1).top.spilled = false) ∧
      (∀ e ∈ s0.groups, ∀ pc cards, (s0.grp e.1).stall ≠ some (.enq pc cards)) ∧
      (∀ e ∈ s0.groups, (s0.grp e.1).study.haltMask = 0 ∧ (s0.grp e.1).lanes.waits = []) ∧ (∀ e ∈ s0.cores, e.2.line = []) ∧ s0.mod_.cutState = 0 ∧
      ∀ e ∈ s0.grids, (s0.grid e.1).run.done = true ∨ (s0.grid e.1).run.inel = true ∨ s0.eligibleGrid e.1 = true) ∧ empty0.ctx = none ∧ (Instr.agent .hangWindowEnd = true ∧ Instr.agent .rti = false) ∧ ({ s0.mod_ with powered := false } : Module).powered = false := by
  refine ⟨⟨by rfl, by rfl, by rfl, by decide +kernel, by rfl, by decide +kernel, by rfl⟩, ⟨by rfl, by decide +kernel, by rfl, by decide +kernel⟩, ⟨by rfl, by decide +kernel, by rfl⟩,
    ⟨by decide +kernel, by decide +kernel, by rfl, by decide +kernel⟩,
    ⟨by decide +kernel, fun e h pc cards => by rw [List.mem_singleton.mp (show e ∈ [(0, fetchGroup)] from h)]; exact nofun, by decide +kernel, by decide +kernel, by decide +kernel, by decide +kernel⟩, by rfl, by decide, by rfl⟩
/-- Every encoding of `rti`, and the lowest and the highest register of a compact instruction. -/
theorem witness_EncodingsRoundTrip : (Instr.rti.wf = true ∧ Instr.rti.encoded = true) ∧
    ((Instr.addCompact ⟨.row 27, 59⟩).wf = true ∧ (Instr.addCompact ⟨.row 27, 59⟩).encoded = true) ∧ ∃ i, decode 0x000004F5 = .ok i :=
  ⟨by decide, by decide, ⟨.rti, by decide +kernel⟩⟩
/-- Memories in form, and a step that goes on. -/
theorem witness_EveryStepKeepsMemoryForm : MemoryForm State.reset ∧ ∃ t, step State.reset = .next t :=
  ⟨⟨by rfl, by rfl, fun p h => (by cases h), fun e h => (by cases h), fun e h => (by cases h)⟩, _, rfl⟩
end Sys2Proof.Tests
end

section
/-! Scalar instructions (R146, R169 to R171): what a write of a scalar leaves, what the shared scalar operation does (`scalarOp_issued`), the values and
the encodings of `saddi`, `sli`, `slh` and `slx`. -/

namespace Sys2Proof
open Machine Claims

/-! ### Writing one scalar -/

theorem sreg_setS (g : Group) (d : SReg) (v : W64) (r : Nat) : (g.setS d v).sreg r = if r = d.val then ⟨v, false⟩ else g.sreg r := by
  unfold Group.setS Group.setSc Group.sreg
  by_cases e : r = d.val
  · subst e
    by_cases hd : d.val < 16 <;> simp [hd, Group.setTop, Group.top]
  · by_cases hd : d.val < 16 <;> simp [hd, Group.setTop, Group.top, get_put_ne _ _ _ e, e]

/-- A write of a scalar changes scalars of the top frame or of the group, and nothing else. -/
theorem setS_eq (g : Group) (d : SReg) (v : W64) :
    g.setS d v = { g with frames := (g.setS d v).frames, regs := { g.regs with gs := (g.setS d v).regs.gs } } := by
  unfold Group.setS Group.setSc
  split <;> rfl
theorem regs_setS (g : Group) (d : SReg) (v : W64) : (g.setS d v).regs = { g.regs with gs := (g.setS d v).regs.gs } :=
  congrArg Group.regs (setS_eq g d v)
theorem top_setS (g : Group) (d : SReg) (v : W64) : (g.setS d v).top = { g.top with sc := (g.setS d v).top.sc } := by
  unfold Group.setS Group.setSc
  split <;> rfl
@[simp] theorem lower_setS (g : Group) (d : SReg) (v : W64) : (g.setS d v).frames.tail = g.frames.tail := by
  unfold Group.setS Group.setSc
  split <;> rfl
@[simp] theorem lanes_setS (g : Group) (d : SReg) (v : W64) : (g.setS d v).lanes = g.lanes := by
  rw [setS_eq]
@[simp] theorem row_setS (g : Group) (d : SReg) (v : W64) : (g.setS d v).row = g.row := by
  funext r; unfold Group.row; rw [top_setS]
@[simp] theorem mrow_setS (g : Group) (d : SReg) (v : W64) : (g.setS d v).mrow = g.mrow := by
  funext r; unfold Group.mrow; rw [top_setS]
@[simp] theorem pred_setS (g : Group) (d : SReg) (v : W64) (p : PReg) : (g.setS d v).pred p = g.pred p := by
  unfold Group.pred; rw [regs_setS]
@[simp] theorem slotWord_setS (g : Group) (d : SReg) (v : W64) (b l : Nat) : slotWord (g.setS d v) b l = slotWord g b l := by
  unfold slotWord; rw [regs_setS]

/-! ### The shared scalar operation -/

/-- A write of one scalar, counted as an issue, leaves what R146 wants of the registers. -/
theorem setS_registers {g g' : Group} (hf : g'.frames = g.frames) (hr : g'.regs = g.regs) (d : SReg) (v : W64) :
    Registers g (g'.setS d v).countIssue { sc := some (d.val, v) } := by
  have htop : g'.top = g.top := by unfold Group.top; rw [hf]
  have hslot : slotWord g' = slotWord g := by funext b l; unfold slotWord; rw [hr]
  apply Registers.count (w := { sc := some (d.val, v) }) rfl
  case hc => rw [regs_setS, hr]
  case hv => rw [regs_setS, hr]; rfl
  case word => intro r l _; rw [row_setS, row_frames hf]; rfl
  case poison => intro r; rw [row_setS, row_frames hf]; rfl
  case mword => intro r l _; rw [mrow_setS, mrow_frames hf]; rfl
  case mpoison => intro r; rw [mrow_setS, mrow_frames hf]; rfl
  case scalar => intro r; rw [sreg_setS, sreg_frames hf hr]
  case pred => intro p; rw [pred_setS]; unfold Group.pred; rw [hr]
  case slot => intro b l _ _; rw [slotWord_setS, hslot]; rfl
  case system => rw [regs_setS, hr]
  case lower => rw [lower_setS, hf]
  case top => rw [top_setS, htop]

/-- A scalar instruction that goes ahead writes its value in the destination, and nothing else changes. -/
theorem scalarOp_issued (s : State) (c : Ctx) (srcs : List SReg) (sd : SReg) (f : Group → W64)
    (h : Ready s c) (hg : Goes s c (active c none) { ssrcs := srcs.map Fin.val, sdsts := [sd.val] }) :
    ∃ t, scalarOp s srcs sd f = .next t ∧ Issued s t c { sc := some (sd.val, f c.g) } := by
  have hact : active c none ≠ 0 := by rw [active_none]; exact h.mask_ne
  unfold scalarOp
  refine issued_of s c none (fun _ _ => { ssrcs := srcs.map Fin.val, sdsts := [sd.val] }) (fun c _ g => g.setS sd (f c.g)) _
    ⟨rfl, rfl, rfl⟩ h hg rfl rfl rfl rfl rfl rfl ?_ ?_ ?_
  · intro g
    rw [setS_eq g sd (f c.g)]
  · intro g hf hr
    rw [if_neg fun e => hact e.1]
    exact setS_registers hf hr sd (f c.g)
  · intro g hpc l hl
    rw [if_neg fun e => hact e.1, lanes_setS]
    exact hpc l hl

/-- An instruction whose meaning is the shared scalar operation has the result that the value it computes satisfies. -/
theorem scalarResult_of_scalarOp {i : Instr} {srcs : List SReg} {sd : SReg} {f : Group → W64} {P : Ctx → W64 → Prop}
    (hi : ∀ s, exec i s = scalarOp s srcs sd f) (hP : ∀ c, P c (f c.g)) :
    ScalarResult i none { ssrcs := srcs.map Fin.val, sdsts := [sd.val] } sd P := by
  intro _ s c h hg
  obtain ⟨t, ht, hissued⟩ := scalarOp_issued s c srcs sd f h hg
  exact ⟨t, f c.g, (hi s).trans ht, hissued, hP c⟩

/-! ### Meanings and values -/

theorem exec_saddi (imm : BitVec 11) (sa sd : SReg) (s : State) :
    exec (.saddi imm sa sd) s = scalarOp s [sa] sd fun g => saddi (g.s sa) imm := by rfl
theorem exec_sli (f : SI) (s : State) : exec (.sli f) s = scalarOp s [] f.sd fun _ => sli f.imm := by rfl
theorem exec_slh (f : SI) (s : State) : exec (.slh f) s = scalarOp s [f.sd] f.sd fun g => slh (g.s f.sd) f.imm := by rfl
theorem exec_slx (f : SI) (s : State) : exec (.slx f) s = scalarOp s [f.sd] f.sd fun g => slx (g.s f.sd) f.imm := by rfl

theorem toNat_signExtend_emod {n m : Nat} (x : BitVec n) : ((x.signExtend m).toNat : Int) = x.toInt % 2 ^ m := by
  have hpos : (0 : Int) ≤ x.toInt % ((2 ^ m : Nat) : Int) := Int.emod_nonneg _ (by positivity)
  rw [BitVec.signExtend, BitVec.toNat_ofInt, Int.toNat_of_nonneg hpos]
  push_cast
  rfl

/-- R170: the sum with the sign-extended immediate, modulo 2^64. -/
theorem saddi_toNat (x : W64) (imm : BitVec 11) : ((saddi x imm).toNat : Int) = (x.toNat + imm.toInt) % 2 ^ 64 := by
  unfold saddi
  rw [BitVec.toNat_add, Int.natCast_emod, Nat.cast_add, toNat_signExtend_emod]
  exact Int.add_emod_emod ..

/-- R171, `sli`: the immediate itself. -/
theorem sli_toInt (imm : BitVec 16) : (sli imm).toInt = imm.toInt := BitVec.toInt_signExtend_of_le (by decide)

/-- An immediate above the low n bits of a value. -/
theorem append_low_toInt {m : Nat} (hm : m ≠ 0) (imm : BitVec m) (x : W64) (n : Nat) :
    (imm ++ x.extractLsb' 0 n).toInt = imm.toInt * 2 ^ n + (x.toNat % 2 ^ n : Nat) := by
  rw [BitVec.toInt_append, BitVec.extractLsb'_toNat]
  simp [hm, Int.mul_comm]

/-- R171, `slh`: the immediate above the low 16 bits, sign-extended. -/
theorem slh_toInt (x : W64) (imm : BitVec 16) : (slh x imm).toInt = imm.toInt * 2 ^ 16 + (x.toNat % 2 ^ 16 : Nat) := by
  unfold slh
  rw [BitVec.toInt_signExtend_of_le (by decide), append_low_toInt (by decide)]

/-- R171, `slx`: the sign-extended immediate above the low 32 bits. -/
theorem slx_toInt (x : W64) (imm : BitVec 16) : (slx x imm).toInt = imm.toInt * 2 ^ 32 + (x.toNat % 2 ^ 32 : Nat) := by
  unfold slx
  rw [append_low_toInt (by decide), BitVec.toInt_signExtend_of_le (by decide)]

/-! ### Encodings -/

@[simp] theorem SReg.of_val (r : SReg) : SReg.of r.val = r := Fin.ofNat_val_eq_self r

/-- An odd word of 32 bits is a 32-bit instruction (R109). -/
theorem decode_of_odd {w : Nat} (hodd : w % 2 = 1) (hw : w < 2 ^ 32) : decode w = decode32 w := by
  unfold decode
  rw [if_neg (by omega), Nat.mod_eq_of_lt hw]

/-- The only check of the majors without a guard (R118). -/
theorem pick_kG0 {w : Nat} (h : fld w 7 4 = 0) (i : Instr) : pick [kG0 w] i = .ok i := by
  simp [pick, kG0, lowest, h]

/-- The fields of format SA (R118): major, sd, sa and imm11. -/
theorem decode_saddi (imm : BitVec 11) (sa sd : SReg) :
    decode (1 + 2 * 50 + 2 ^ 11 * sd.val + 2 ^ 16 * sa.val + 2 ^ 21 * imm.toNat) = .ok (.saddi imm sa sd) := by
  generalize hw : 1 + 2 * 50 + 2 ^ 11 * sd.val + 2 ^ 16 * sa.val + 2 ^ 21 * imm.toNat = w
  have hsd : sd.val < 32 := sd.isLt
  have hsa : sa.val < 32 := sa.isLt
  have himm : imm.toNat < 2048 := imm.isLt
  have hmajor : fld w 1 6 = 50 := by unfold fld; omega
  have hg : fld w 7 4 = 0 := by unfold fld; omega
  have hd : fld w 11 5 = sd.val := by unfold fld; omega
  have ha : fld w 16 5 = sa.val := by unfold fld; omega
  have hi : fld w 21 11 = imm.toNat := by unfold fld; omega
  rw [decode_of_odd (by omega) (by omega)]
  unfold decode32
  simp only [hmajor]
  rw [pick_kG0 hg, hd, ha, hi, SReg.of_val, SReg.of_val, BitVec.ofNat_toNat, BitVec.setWidth_eq]

/-- The fields of format SI (R118), for each of its majors: major, sd and imm16. -/
theorem decode_si {major : Nat} {mk : SI → Instr} (hm : major < 64)
    (hmk : ∀ w, fld w 1 6 = major → decode32 w = pick [kG0 w] (mk ⟨BitVec.ofNat 16 (fld w 16 16), .of (fld w 11 5)⟩)) (f : SI) :
    decode (1 + 2 * major + 2 ^ 11 * f.sd.val + 2 ^ 16 * f.imm.toNat) = .ok (mk f) := by
  generalize hw : 1 + 2 * major + 2 ^ 11 * f.sd.val + 2 ^ 16 * f.imm.toNat = w
  have hsd : f.sd.val < 32 := f.sd.isLt
  have himm : f.imm.toNat < 65536 := f.imm.isLt
  have hmajor : fld w 1 6 = major := by unfold fld; omega
  have hg : fld w 7 4 = 0 := by unfold fld; omega
  have hd : fld w 11 5 = f.sd.val := by unfold fld; omega
  have hi : fld w 16 16 = f.imm.toNat := by unfold fld; omega
  rw [decode_of_odd (by omega) (by omega), hmk w hmajor, pick_kG0 hg, hd, hi, SReg.of_val, BitVec.ofNat_toNat, BitVec.setWidth_eq]

theorem decode_sli (f : SI) : decode (1 + 2 * 51 + 2 ^ 11 * f.sd.val + 2 ^ 16 * f.imm.toNat) = .ok (.sli f) :=
  decode_si (by decide) (fun w hw => by unfold decode32; simp only [hw]) f
theorem decode_slh (f : SI) : decode (1 + 2 * 52 + 2 ^ 11 * f.sd.val + 2 ^ 16 * f.imm.toNat) = .ok (.slh f) :=
  decode_si (by decide) (fun w hw => by unfold decode32; simp only [hw]) f
theorem decode_slx (f : SI) : decode (1 + 2 * 53 + 2 ^ 11 * f.sd.val + 2 ^ 16 * f.imm.toNat) = .ok (.slx f) :=
  decode_si (by decide) (fun w hw => by unfold decode32; simp only [hw]) f

/-! ### The obligations -/

/-- Settles O18: the fields of the word by `decode_saddi`, the value by `saddi_toNat`, and the frame by the shared scalar operation. -/
theorem saddiAddsSignedImmediate : Obligations.SaddiAddsSignedImmediate := by
  intro imm sa sd
  refine ⟨decode_saddi imm sa sd, scalarResult_of_scalarOp (exec_saddi imm sa sd) fun c => ?_⟩
  exact ⟨saddi_toNat (c.g.s sa) imm, imm.le_toInt, Int.le_sub_one_of_lt imm.toInt_lt⟩

/-- Settles O19: for each of the three, the fields of its word, its value, and the frame by the shared scalar operation. -/
theorem scalarConstantResults : Obligations.ScalarConstantResults := by
  refine ⟨fun f => ⟨decode_sli f, ?_⟩, fun f => ⟨decode_slh f, ?_⟩, fun f => ⟨decode_slx f, ?_⟩⟩
  · exact scalarResult_of_scalarOp (exec_sli f) fun _ => sli_toInt f.imm
  · exact scalarResult_of_scalarOp (exec_slh f) fun c => slh_toInt (c.g.s f.sd) f.imm
  · exact scalarResult_of_scalarOp (exec_slx f) fun c => slx_toInt (c.g.s f.sd) f.imm

end Sys2Proof
end

section
/-! `brs` and `loop` (R110, R175, R177): what going to another program counter leaves, what a branch of the issue mask does (`branch_issued`), the conditions,
the count and the encodings of the two. -/

namespace Sys2Proof
open Machine Claims

/-! ### Going to a program counter -/

/-- The lanes of `m` go on at `dst` when `b` holds. -/
def goIf (b : Bool) (m : Mask) (dst : W64) (g : Group) : Group := if b then g.setPc m fun _ => dst else g

/-- It changes nothing of a group but program counters. -/
theorem goIf_eq (b : Bool) (m : Mask) (dst : W64) (g : Group) :
    goIf b m dst g = { g with lanes := { g.lanes with pc := (goIf b m dst g).lanes.pc } } := by
  cases b <;> rfl

theorem countIssue_pc (g : Group) (pc : Vector W64 64) :
    ({ g with lanes := { g.lanes with pc := pc } } : Group).countIssue = { g.countIssue with lanes := { g.lanes with pc := pc } } := by
  unfold Group.countIssue
  split <;> rfl

/-- What an instruction wants of the registers does not speak of where lanes go on. -/
theorem registers_goIf {g g' : Group} {w : Want} (h : Registers g g'.countIssue w) (b : Bool) (m : Mask) (dst : W64) (pc : Nat → Option W64) :
    Registers g (goIf b m dst g').countIssue { w with pc := pc } := by
  rw [goIf_eq, countIssue_pc]
  exact ⟨h.word, h.poison, h.mword, h.mpoison, h.scalar, h.pred, h.valid, h.slot, h.system, h.lower, h.top⟩

/-- When the lanes of the issue mask stand at the next instruction, they go on at `dst` if `b` holds, and otherwise there. -/
theorem onward_goIf {c : Ctx} {g : Group} {w : Want} (b : Bool) (dst : W64)
    (hpc : ∀ l, l < 64 → pcOf g.lanes.pc l = if has c.mask l then c.pc + BitVec.ofNat 64 w.len else pcOf c.g.lanes.pc l) :
    Onward c (goIf b c.mask dst g) { w with pc := fun _ => if b then some dst else none } := by
  intro l hl
  cases b
  case false => exact hpc l hl
  case true =>
    show pcOf (setPcs c.mask (fun _ => dst) g.lanes.pc) l = if has c.mask l then dst else pcOf c.g.lanes.pc l
    rw [pcOf_setPcs _ _ _ hl, hpc l hl]
    split <;> rfl

/-- The offset counts parcels of 2 bytes (R110). -/
theorem branchTo_eq_target (c : Ctx) {n : Nat} (off : BitVec n) : branchTo c.pc off = target c off := by
  unfold branchTo target BitVec.signExtend
  rw [Int.mul_comm, BitVec.ofInt_mul]
  rfl

/-- An issue that writes no register keeps every one. -/
theorem registers_unwritten {g g' : Group} (hf : g'.frames = g.frames) (hr : g'.regs = g.regs) : Registers g g'.countIssue {} := by
  apply Registers.count (w := {}) rfl
  case hc => rw [hr]
  case hv => rw [hr]; rfl
  case word => intro r l _; rw [row_frames hf]; rfl
  case poison => intro r; rw [row_frames hf]; rfl
  case mword => intro r l _; rw [mrow_frames hf]; rfl
  case mpoison => intro r; rw [mrow_frames hf]; rfl
  case scalar => intro r; rw [sreg_frames hf hr]
  case pred => intro p; unfold Group.pred; rw [hr]
  case slot => intro b l _ _; unfold slotWord; rw [hr]; rfl
  case system => rw [hr]
  case lower => rw [hf]
  case top => unfold Group.top; rw [hf]

/-! ### The branch of the issue mask -/

/-- An instruction that reads and writes scalars and that every lane of the issue mask executes: after the write `W` the lanes go to the target when
`taken` says so, and otherwise to the next instruction. -/
theorem branch_issued (s : State) (c : Ctx) (srcs dsts : List Nat) (W : Ctx → Group → Group) (taken : Ctx → Bool) {n : Nat} (off : BitVec n)
    (sc : Option (Nat × W64)) (h : Ready s c) (hg : Goes s c (active c none) { ssrcs := srcs, sdsts := dsts })
    (hW : ∀ g, W c g = { g with frames := (W c g).frames, regs := (W c g).regs })
    (hregs : ∀ g, g.frames = c.g.frames → g.regs = c.g.regs → Registers c.g (W c g).countIssue { sc := sc }) :
    ∃ t, issue s none (fun _ _ => { ssrcs := srcs, sdsts := dsts })
        (fun c act s _ => s.upd c.key fun g => goIf (taken c) act (branchTo c.pc off) (W c g)) = .next t ∧
      Issued s t c { sc := sc, pc := fun _ => if taken c then some (target c off) else none } := by
  have hact : active c none ≠ 0 := by rw [active_none]; exact h.mask_ne
  rw [← branchTo_eq_target]
  refine issued_of s c none (fun _ _ => { ssrcs := srcs, sdsts := dsts }) (fun c act g => goIf (taken c) act (branchTo c.pc off) (W c g)) _
    ⟨rfl, rfl, rfl⟩ h hg rfl rfl rfl rfl rfl rfl ?_ ?_ ?_
  · intro g
    rw [goIf_eq, hW g]
  · intro g hf hr
    rw [if_neg fun e => hact e.1]
    exact registers_goIf (w := { sc := sc }) (hregs g hf hr) ..
  · intro g hpc
    rw [if_neg fun e => hact e.1, active_none]
    refine onward_goIf (w := { sc := sc }) _ _ fun l hl => ?_
    rw [hW g]
    exact hpc l hl

/-! ### `brs` -/

theorem exec_brs (off : BitVec 13) (cc : BrCc) (sa : SReg) (s : State) :
    exec (.brs off cc sa) s = issue s none (fun _ _ => { ssrcs := [sa.val], sdsts := [] }) fun c act s _ => s.upd c.key fun g =>
      goIf (brCond cc (c.g.s sa)) act (branchTo c.pc off) g := by rfl

/-- R175: the comparison of a scalar with 0. -/
theorem brCond_iff (cc : BrCc) (x : W64) : brCond cc x = true ↔ brsHolds cc x.toInt := by
  have hzero : x = 0#64 ↔ x.toInt = 0 := BitVec.toInt_inj.symm
  cases cc <;> simp [brCond, brsHolds, hzero]

theorem brs_issued (off : BitVec 13) (cc : BrCc) (sa : SReg) (s : State) (c : Ctx) (h : Ready s c)
    (hg : Goes s c (active c none) { ssrcs := [sa.val] }) :
    ∃ t, exec (.brs off cc sa) s = .next t ∧ Issued s t c { pc := fun _ => if brCond cc (c.g.s sa) then some (target c off) else none } := by
  rw [exec_brs]
  exact branch_issued s c [sa.val] [] (fun _ g => g) (fun c => brCond cc (c.g.s sa)) off none h hg (fun _ => rfl) fun _ hf hr => registers_unwritten hf hr

/-- The checks of the majors with a subfield (R133): the span that is 0, and the value of the subfield. -/
theorem pick_kG0_kSub {w : Nat} (h : fld w 7 4 = 0) (p : Prop) [Decidable p] (i : Instr) :
    pick [kG0 w, kSub (decide p)] i = if p then .bad 0x0102 else .ok i := by
  by_cases hp : p <;> simp [pick, kG0, kSub, lowest, h, hp]

/-- The fields of format BS (R118): major, sa, cc and off13; a cc of 6 or 7 is illegal (R175). -/
theorem decode_brs (off : BitVec 13) (sa : SReg) {x : Nat} (hx : x < 8) :
    decode (1 + 2 * 55 + 2 ^ 11 * sa.val + 2 ^ 16 * x + 2 ^ 19 * off.toNat) = if 6 ≤ x then .bad 0x0102 else .ok (.brs off (.of x) sa) := by
  generalize hw : 1 + 2 * 55 + 2 ^ 11 * sa.val + 2 ^ 16 * x + 2 ^ 19 * off.toNat = w
  have hsa : sa.val < 32 := sa.isLt
  have hoff : off.toNat < 8192 := off.isLt
  have hmajor : fld w 1 6 = 55 := by unfold fld; omega
  have hg : fld w 7 4 = 0 := by unfold fld; omega
  have ha : fld w 11 5 = sa.val := by unfold fld; omega
  have hcc : fld w 16 3 = x := by unfold fld; omega
  have ho : fld w 19 13 = off.toNat := by unfold fld; omega
  rw [decode_of_odd (by omega) (by omega)]
  unfold decode32
  simp only [hmajor]
  rw [pick_kG0_kSub hg, ha, hcc, ho, SReg.of_val, BitVec.ofNat_toNat, BitVec.setWidth_eq]

theorem brsCode_lt (cc : BrCc) : brsCode cc < 6 := by cases cc <;> decide
@[simp] theorem BrCc.of_brsCode (cc : BrCc) : BrCc.of (brsCode cc) = cc := by cases cc <;> rfl

/-! ### `loop` -/

theorem exec_loop (off : BitVec 16) (r : SReg) (s : State) :
    exec (.loop off r) s = issue s none (fun _ _ => { ssrcs := [r.val], sdsts := [r.val] }) fun c act s _ => s.upd c.key fun g =>
      goIf (c.g.s r - 1 != 0) act (branchTo c.pc off) (g.setS r (c.g.s r - 1)) := by rfl

theorem loop_issued (off : BitVec 16) (r : SReg) (s : State) (c : Ctx) (h : Ready s c)
    (hg : Goes s c (active c none) { ssrcs := [r.val], sdsts := [r.val] }) :
    ∃ t, exec (.loop off r) s = .next t ∧
      Issued s t c { sc := some (r.val, c.g.s r - 1), pc := fun _ => if c.g.s r - 1 != 0 then some (target c off) else none } := by
  rw [exec_loop]
  refine branch_issued s c [r.val] [r.val] (fun c g => g.setS r (c.g.s r - 1)) (fun c => c.g.s r - 1 != 0) off _ h hg ?_ ?_
  · intro g
    rw [setS_eq g r (c.g.s r - 1)]
  · intro g hf hr
    exact setS_registers hf hr r (c.g.s r - 1)

/-- R177: the count wraps at 0. -/
theorem sub_one_toNat (x : W64) : ((x - 1).toNat : Int) = (x.toNat - 1) % 2 ^ 64 := by
  bv_omega

/-- Format LP has the fields of format SI (R118): s in the place of sd, and off16 in that of imm16. -/
theorem decode_loop (off : BitVec 16) (r : SReg) : decode (1 + 2 * 59 + 2 ^ 11 * r.val + 2 ^ 16 * off.toNat) = .ok (.loop off r) :=
  decode_si (mk := fun f => .loop f.imm f.sd) (by decide) (fun w hw => by unfold decode32; simp only [hw]) ⟨off, r⟩

/-! ### The obligations -/

/-- Settles O21: the fields of the word by `decode_brs`, the effect by `brs_issued`, and the comparison by `brCond_iff`. -/
theorem brsComparesScalarWithZero : Obligations.BrsComparesScalarWithZero := by
  refine ⟨fun off cc sa => ⟨?_, fun s c h hg => ?_⟩, fun off sa x hx => ⟨0x0102, ?_⟩⟩
  · have hcc : brsCode cc < 6 := brsCode_lt cc
    rw [decode_brs off sa (by omega), if_neg (by omega), BrCc.of_brsCode]
  · obtain ⟨t, ht, hissued⟩ := brs_issued off cc sa s c h hg
    refine ⟨t, ht, ?_⟩
    rw [← brCond_iff]
    cases hb : brCond cc (c.g.s sa) <;> rw [hb] at hissued
    case true => exact .inl ⟨rfl, hissued⟩
    case false => exact .inr ⟨Bool.false_ne_true, hissued⟩
  · rw [decode_brs off sa (by omega), if_pos (by omega)]

/-- Settles O22: the fields of the word by `decode_loop`, the effect by `loop_issued`, and the count by `sub_one_toNat`; the count is 0 exactly after 1. -/
theorem loopDecrementsAndBranches : Obligations.LoopDecrementsAndBranches := by
  refine fun off r => ⟨decode_loop off r, fun s c h hg => ?_⟩
  obtain ⟨t, ht, hissued⟩ := loop_issued off r s c h hg
  refine ⟨t, c.g.s r - 1, ht, sub_one_toNat _, ?_⟩
  by_cases h1 : c.g.s r = 1
  · have hstays : (c.g.s r - 1 != 0) = false := by rw [h1]; rfl
    rw [hstays] at hissued
    exact .inl ⟨h1, hissued⟩
  · have hgoes : (c.g.s r - 1 != 0) = true := bne_iff_ne.mpr (sub_ne_zero.mpr h1)
    rw [hgoes] at hissued
    exact .inr ⟨h1, hissued⟩

end Sys2Proof
end
